-- ==== Sys2Proof/Word.lean ====
section
/-! DEFINITION. The fixed widths of CORE (spec/00_scope.md R8) as Lean types. -/

namespace Sys2Proof

/-- An operand or result, `W` = 128 bits (R8, R10). -/
abbrev Word := BitVec 128

/-- A limb, `L` = 64 bits (R8, R15). -/
abbrev Limb := BitVec 64

/-- Half a limb, `H` = 32 bits, as the multiplier splits its operands (R8, R91). -/
abbrev Half := BitVec 32

/-- The operation code on the `op` port, 6 bits (R8, R31). -/
abbrev OpCode := BitVec 6

/-- The `flags` port, 4 bits: bit 0 is Z, bit 1 is N, bit 2 is C, bit 3 is V (R8, R32). -/
abbrev FlagBits := BitVec 4

end Sys2Proof
end

