-- ==== Sys2Proof/Syntax.lean ====
section
/-! DEFINITION. The operations of CORE, one constructor per row of spec/opcode_table.json (R61). An operation carries
no field: there is no immediate, register or mode field (R60, R64), and the operands arrive on the ports `a` and `b`,
which are State's. -/

namespace Sys2Proof

/-- The 29 operations of R61, in the order of their codes. -/
inductive Instr where
  /-- Widen the unsigned 64-bit `a.lo` (R80). -/
  | zext64
  /-- Widen the signed 64-bit `a.lo` (R81). -/
  | sext64
  /-- Sign of `a` (R82). -/
  | sign
  /-- 64×64→128 unsigned multiply of the low limbs (R90). -/
  | mulw
  /-- 128×128→128 multiply, unsigned overflow check (R93). -/
  | mul
  /-- Add, unsigned carry-out check (R100). -/
  | add
  /-- Subtract, unsigned borrow check (R102). -/
  | sub
  /-- Add, signed overflow check (R104). -/
  | adds
  /-- Subtract, signed overflow check (R105). -/
  | subs
  /-- `a` minus the unsigned 64-bit `b.lo`, borrow check (R106). -/
  | sub64
  /-- Two's-complement negation (R120). -/
  | neg
  /-- Absolute value of signed `a`, as unsigned (R122). -/
  | abs
  /-- Bitwise and (R130). -/
  | and
  /-- Bitwise or (R131). -/
  | or
  /-- Bitwise exclusive or (R132). -/
  | xor
  /-- Bitwise complement of `a` (R133). -/
  | not
  /-- Logical left shift of `a` by `u(b)` (R144). -/
  | shl
  /-- Logical right shift of `a` by `u(b)` (R146). -/
  | shr
  /-- Arithmetic right shift of `a` by `u(b)` (R148). -/
  | sar
  /-- The four flags of `a - b` as a value (R163). -/
  | cmp
  /-- Equality (R164). -/
  | eq
  /-- Unsigned less-than (R165). -/
  | ltu
  /-- Unsigned less-or-equal (R166). -/
  | leu
  /-- Unsigned greater-than (R167). -/
  | gtu
  /-- Unsigned greater-or-equal (R168). -/
  | geu
  /-- Signed less-than (R169). -/
  | lts
  /-- Signed less-or-equal (R170). -/
  | les
  /-- Signed greater-than (R171). -/
  | gts
  /-- Signed greater-or-equal (R172). -/
  | ges
  deriving DecidableEq, Repr

end Sys2Proof
end

