-- ==== Sys2Proof/Sequence.lean ====
section
/-! DEFINITION. The syntax of a host sequence (spec/30_encoding.md R69) and of the pseudo-operations (R70). It is a
host's use of CORE, not part of CORE: its meaning is in Machine/SeqRun.lean, over CORE's own step. An identifier or a
label of R69 is a number here (log entry 5). -/

namespace Sys2Proof

/-- `operand` of R69: an identifier, which means its `y`, or a constant, which is a 128-bit pattern. -/
inductive SeqOperand where
  /-- An identifier (with or without `.y`). -/
  | var (x : Nat)
  /-- A constant. -/
  | const (v : Word)
  deriving DecidableEq, Repr

/-- What a host branch can read of a variable (R69 `branch`). -/
inductive SeqField where
  /-- The whole result. -/
  | y
  /-- The overflow bit. -/
  | ovf
  /-- The reserved-code bit. -/
  | ill
  /-- The zero flag. -/
  | z
  /-- The sign flag. -/
  | n
  /-- The carry (borrow) flag. -/
  | c
  /-- The signed-overflow flag. -/
  | v
  deriving DecidableEq, Repr

/-- `step`, `rawstep`, `branch` and `halt` of R69. -/
inductive SeqStmt where
  /-- `dest = MNEMONIC operand ["," operand]`. -/
  | eval (dest : Nat) (i : Instr) (x : SeqOperand) (z : Option SeqOperand)
  /-- `dest = .op 0x… operand "," operand`: presents a code by number, reserved ones included. -/
  | raw (dest : Nat) (op : OpCode) (x z : SeqOperand)
  /-- `if identifier.field ("==" | "!=") ("0" | "1") goto label`; `same` is true for `==`. -/
  | branch (x : Nat) (field : SeqField) (same : Bool) (bit : Bool) (target : Nat)
  /-- Ends the host sequence. -/
  | halt
  deriving DecidableEq, Repr

/-- A line with the labels that stand before it: a label "marks the next line as a branch target" (R69). -/
structure SeqLine where
  /-- The labels that mark this line. -/
  labels : List Nat
  /-- What the line does. -/
  stmt : SeqStmt
  deriving DecidableEq, Repr

/-- The pseudo-operations of R70 that expand to at least one step. `U2S` and `S2U` expand to none and are
`unsignedToSigned` and `signedToUnsigned` of Machine/Pseudo.lean. -/
inductive Pseudo where
  /-- Unchecked add. -/
  | addw (x z : SeqOperand)
  /-- Unchecked subtract. -/
  | subw (x z : SeqOperand)
  /-- Unchecked multiply. -/
  | mull (x z : SeqOperand)
  /-- Copy. -/
  | mov (x : SeqOperand)
  /-- Zero. -/
  | clr
  /-- Narrow to 64 bits, by keeping the low limb. -/
  | trunc64 (x : SeqOperand)
  /-- Not equal. -/
  | ne (x z : SeqOperand)
  /-- SHL under another name. -/
  | lsl (x n : SeqOperand)
  /-- SHR under another name. -/
  | lsr (x n : SeqOperand)
  /-- SAR under another name. -/
  | asr (x n : SeqOperand)
  deriving DecidableEq, Repr

end Sys2Proof
end

