-- ==== Sys2Proof/WellFormed.lean ====
section
/-! DEFINITION. The checks on what is presented to CORE. A term of Instr has no field, so every one is well formed;
what can be ill formed is a number that does not fit a port (R31), and a line or a host sequence (R69). -/

namespace Sys2Proof

/-- A number that the 6-bit `op` port can carry (R31). -/
def opFits (w : Nat) : Bool := decide (w < 2 ^ 6)

/-- A number that a 128-bit operand port can carry (R31). -/
def operandFits (v : Nat) : Bool := decide (v < 2 ^ 128)

/-- How many operands a step of this operation names: one for the unary operations of R69, else two. -/
def Instr.arity : Instr → Nat
  | .zext64 => 1
  | .sext64 => 1
  | .sign => 1
  | .mulw => 2
  | .mul => 2
  | .add => 2
  | .sub => 2
  | .adds => 2
  | .subs => 2
  | .sub64 => 2
  | .neg => 1
  | .abs => 1
  | .and => 2
  | .or => 2
  | .xor => 2
  | .not => 1
  | .shl => 2
  | .shr => 2
  | .sar => 2
  | .cmp => 2
  | .eq => 2
  | .ltu => 2
  | .leu => 2
  | .gtu => 2
  | .geu => 2
  | .lts => 2
  | .les => 2
  | .gts => 2
  | .ges => 2

/-- A step names as many operands as its operation takes (R69). -/
def operandCountFits (i : Instr) (z : Option SeqOperand) : Bool := i.arity == 1 + z.toList.length

/-- The label of a branch marks some line of the sequence (R69). -/
def targetExists (prog : List SeqLine) (l : Nat) : Bool := prog.any fun line => line.labels.contains l

/-- A statement of `prog` that R69 admits. -/
def SeqStmt.wellFormed (prog : List SeqLine) : SeqStmt → Bool
  | .eval _ i _ z => operandCountFits i z
  | .raw _ _ _ _ => true
  | .branch _ _ _ _ target => targetExists prog target
  | .halt => true

/-- A host sequence that R69 admits: every statement is well formed and no label marks two lines. -/
def seqWellFormed (prog : List SeqLine) : Bool :=
  prog.all (fun line => line.stmt.wellFormed prog) && decide (prog.flatMap SeqLine.labels).Nodup

end Sys2Proof
end

