-- ==== Sys2Proof/Decode.lean ====
section
/-! DEFINITION. The operation table of spec/30_encoding.md R61, the decoder that R65 gives over it, and the encoder,
which is written from the table once more and not from the decoder. -/

namespace Sys2Proof

/-- A row of the decoder's table: an `op` is the row's when it equals `pattern` under `mask` (R65). -/
structure OpRow where
  /-- The bits compared. -/
  mask : OpCode
  /-- The code. -/
  pattern : OpCode
  /-- The operation the code names. -/
  instr : Instr
  deriving DecidableEq, Repr

/-- Why a number names no operation. -/
inductive DecodeError where
  /-- One of the 35 reserved codes (R66). -/
  | reserved (op : OpCode)
  /-- The number has more than the six bits of the `op` port (R31). -/
  | tooWide (w : Nat)
  deriving DecidableEq, Repr

/-- A row of group `grp` = `op[5:3]` and function `fn` = `op[2:0]` (R60); all six bits are compared (R65). -/
def opRow (grp fn : BitVec 3) (i : Instr) : OpRow := ⟨0x3F#6, grp ++ fn, i⟩

/-- Group 000, conversion (R61, R62). -/
def conversionRows : List OpRow :=
  [opRow 0b000#3 0b000#3 .zext64, opRow 0b000#3 0b001#3 .sext64, opRow 0b000#3 0b010#3 .sign]

/-- Group 001, multiply (R61, R62). -/
def multiplyRows : List OpRow := [opRow 0b001#3 0b000#3 .mulw, opRow 0b001#3 0b001#3 .mul]

/-- Group 010, add and subtract (R61, R62). -/
def addSubRows : List OpRow :=
  [opRow 0b010#3 0b000#3 .add, opRow 0b010#3 0b001#3 .sub, opRow 0b010#3 0b010#3 .adds,
    opRow 0b010#3 0b011#3 .subs, opRow 0b010#3 0b100#3 .sub64]

/-- Group 011, derived (R61, R62). -/
def derivedRows : List OpRow := [opRow 0b011#3 0b000#3 .neg, opRow 0b011#3 0b001#3 .abs]

/-- Group 100, logic (R61, R62). -/
def logicRows : List OpRow :=
  [opRow 0b100#3 0b000#3 .and, opRow 0b100#3 0b001#3 .or, opRow 0b100#3 0b010#3 .xor, opRow 0b100#3 0b011#3 .not]

/-- Group 101, shift (R61, R62). -/
def shiftRows : List OpRow :=
  [opRow 0b101#3 0b000#3 .shl, opRow 0b101#3 0b001#3 .shr, opRow 0b101#3 0b010#3 .sar]

/-- Group 110, compare: flags and unsigned (R61, R62). -/
def compareUnsignedRows : List OpRow :=
  [opRow 0b110#3 0b000#3 .cmp, opRow 0b110#3 0b001#3 .eq, opRow 0b110#3 0b010#3 .ltu,
    opRow 0b110#3 0b011#3 .leu, opRow 0b110#3 0b100#3 .gtu, opRow 0b110#3 0b101#3 .geu]

/-- Group 111, compare: signed (R61, R62). -/
def compareSignedRows : List OpRow :=
  [opRow 0b111#3 0b010#3 .lts, opRow 0b111#3 0b011#3 .les, opRow 0b111#3 0b100#3 .gts, opRow 0b111#3 0b101#3 .ges]

/-- The complete operation table (R61). -/
def opTable : List OpRow :=
  conversionRows ++ multiplyRows ++ addSubRows ++ derivedRows ++ logicRows ++ shiftRows ++ compareUnsignedRows ++
    compareSignedRows

/-- The row's code matches `op` (R65). -/
def OpRow.admits (r : OpRow) (op : OpCode) : Bool := op &&& r.mask == r.pattern

/-- The decoder of R65: the row that matches, or, when none does, the code is reserved (R66). -/
def decodeOp (op : OpCode) : Except DecodeError Instr :=
  match opTable.find? (fun r => r.admits op) with
  | some r => .ok r.instr
  | none => .error (.reserved op)

/-- Decoding of any number as an `op`: one that the port cannot carry names no operation. -/
def decodeNat (w : Nat) : Except DecodeError Instr :=
  if opFits w then decodeOp (BitVec.ofNat 6 w) else .error (.tooWide w)

/-- The instruction that the decoder reads from a word of `nbits` bits, bit 0 the least significant; the `op` port is
its bits 5 to 0 and the rest must be zero. -/
def decodeTableWord (nbits w : Nat) : Option Instr :=
  match decodeNat (w % 2 ^ nbits) with
  | .ok i => some i
  | .error _ => none

/-- The code of an operation (the hex column of R61). -/
def encode : Instr → OpCode
  | .zext64 => 0x00#6
  | .sext64 => 0x01#6
  | .sign => 0x02#6
  | .mulw => 0x08#6
  | .mul => 0x09#6
  | .add => 0x10#6
  | .sub => 0x11#6
  | .adds => 0x12#6
  | .subs => 0x13#6
  | .sub64 => 0x14#6
  | .neg => 0x18#6
  | .abs => 0x19#6
  | .and => 0x20#6
  | .or => 0x21#6
  | .xor => 0x22#6
  | .not => 0x23#6
  | .shl => 0x28#6
  | .shr => 0x29#6
  | .sar => 0x2A#6
  | .cmp => 0x30#6
  | .eq => 0x31#6
  | .ltu => 0x32#6
  | .leu => 0x33#6
  | .gtu => 0x34#6
  | .geu => 0x35#6
  | .lts => 0x3A#6
  | .les => 0x3B#6
  | .gts => 0x3C#6
  | .ges => 0x3D#6

end Sys2Proof
end

