-- ==== Sys2Proof/Config.lean ====
section
/-! DEFINITION. What the spec leaves to the build or to the host: the free values, which have no body, and the type of
the one parameter the host fixes. The parameter `T_PD` (R9) is an argument of the functions of Machine/Sampling.lean
and the parameter `HOST_LIMB_ORDER` (R9) one of the functions of Machine/HostImage.lean, as R9 asks. -/

namespace Sys2Proof

/-- The order in which a host lays the two limbs of a value into its own memory, `HOST_LIMB_ORDER` (R9, R54). -/
inductive LimbOrder where
  /-- The low limb first. -/
  | loFirst
  /-- The high limb first. -/
  | hiFirst
  deriving DecidableEq, Repr, Inhabited

/-- What the `y` port shows at the `n`-th early sample: any value (R224, log entry 3). -/
opaque Config.earlyY : Nat → Word

/-- What the `ovf` port shows at the `n`-th early sample: any value (R224, log entry 3). -/
opaque Config.earlyOvf : Nat → Bool

/-- What the `flags` port shows at the `n`-th early sample: any value (R224, log entry 3). -/
opaque Config.earlyFlags : Nat → FlagBits

/-- What the `ill` port shows at the `n`-th early sample: any value (R224, log entry 3). -/
opaque Config.earlyIll : Nat → Bool

/-- `x.ovf` of a host variable `x` that a start state gives only a `y` (R69, log entry 6): any value. -/
opaque Config.startOvf : Nat → Bool

/-- The flags of a host variable that a start state gives only a `y` (R69, log entry 6): any value. -/
opaque Config.startFlags : Nat → FlagBits

/-- `x.ill` of a host variable `x` that a start state gives only a `y` (R69, log entry 6): any value. -/
opaque Config.startIll : Nat → Bool

end Sys2Proof
end

