-- ==== Sys2Proof/Machine/State.lean ====
section
/-! DEFINITION. The state of the model: the three inputs and the four outputs of CORE (R31, R32). CORE itself holds
nothing (R30, R33): the inputs are what the host drives, and the outputs are what the host last sampled (log entry 4). -/

namespace Sys2Proof.Machine

/-- The four outputs together, as the evaluation function of R35 gives them. -/
structure Outputs where
  /-- The result (R32). -/
  y : Word
  /-- The overflow, carry or borrow bit (R32). -/
  ovf : Bool
  /-- `{V, C, N, Z}` of `a - b` (R32, R160). -/
  flags : FlagBits
  /-- 1 for a reserved code (R32, R66). -/
  ill : Bool
  deriving DecidableEq, Repr

/-- The ports of CORE. -/
structure State where
  /-- Input: selects the operation (R31). -/
  op : OpCode
  /-- Input: the first operand (R31). -/
  a : Word
  /-- Input: the second operand or the shift amount (R31). -/
  b : Word
  /-- Output: the result (R32). -/
  y : Word
  /-- Output: the overflow indication (R32). -/
  ovf : Bool
  /-- Output: the flags of `a - b`, bit 0 Z, bit 1 N, bit 2 C, bit 3 V (R32). -/
  flags : FlagBits
  /-- Output: 1 when `op` is a reserved code (R32). -/
  ill : Bool
  /-- The model's own: how many early samples have been taken, so that each shows a fresh free value (log entry 3). -/
  draws : Nat
  deriving DecidableEq, Repr

/-- Why a run of a host sequence stops (R202, R69). CORE's own step raises none of these: it has no exception (R200),
and it drives defined outputs for a reserved code (R66). -/
inductive Fault where
  /-- Raised by a step of a host sequence whose evaluation gives `ill = 1` (R202). Safe: the spec asks for the fault,
  which "errs toward unprovable". -/
  | illegalOp (op : OpCode)
  /-- Raised by a step or branch of a host sequence that reads a variable nothing has given a value (R69; log entry 7).
  Safe: the sequence stops. -/
  | unboundVariable (x : Nat)
  /-- Raised by a taken branch of a host sequence to a label that marks no line (R69; log entry 7). Safe. -/
  | unknownLabel (l : Nat)
  /-- Raised by a step of a host sequence that names the wrong number of operands (R69; log entry 7). Safe. -/
  | operandCount (i : Nat)
  /-- Raised when a host sequence runs past its last line without `halt` (R69; log entry 7). Safe. -/
  | ranOffEnd (pos : Nat)
  deriving DecidableEq, Repr

/-- Why a step has no meaning. -/
inductive Refusal where
  /-- Raised by an arm of exec for an operation that has no meaning yet; no arm raises it. Safe. -/
  | notModelled (mnemonic : String)
  deriving DecidableEq, Repr

/-- CORE has no reset and nothing to reset (R220). The host drives zero on every input (DESIGN CHOICE, log entry 1) and
the outputs are those that R221 gives for these inputs, once they have been stable for `T_PD`: code 0x00 is ZEXT64,
so `y = 0`, and of `0 - 0` only Z is set (log entry 1). -/
def State.reset : State where
  op := 0x00#6
  a := 0#128
  b := 0#128
  y := 0#128
  ovf := false
  flags := 0b0001#4
  ill := false
  draws := 0

end Sys2Proof.Machine
end

