-- ==== Sys2Proof/Machine/Operands.lean ====
section
/-! DEFINITION. How an operand is read and a result narrowed: the two readings `u` and `s` (R11), the limbs and halves
(R10, R91), `trunc_N`, `zext_N` and `sext_N` (R12), the shift amount (R140), and the named constants (R14). -/

namespace Sys2Proof.Machine

/-- `ZERO`, also `MIN_UNSIGNED` (R14). -/
def zero : Word := 0x00000000000000000000000000000000#128

/-- `ONE` (R14). -/
def one : Word := 0x00000000000000000000000000000001#128

/-- `MAX_UNSIGNED` (R14). -/
def maxUnsigned : Word := 0xFFFFFFFFFFFFFFFFFFFFFFFFFFFFFFFF#128

/-- `MAX_SIGNED` (R14). -/
def maxSigned : Word := 0x7FFFFFFFFFFFFFFFFFFFFFFFFFFFFFFF#128

/-- `MIN_SIGNED` (R14). -/
def minSigned : Word := 0x80000000000000000000000000000000#128

/-- `U64_MAX`, a 64-bit pattern (R14). -/
def u64Max : Limb := 0xFFFFFFFFFFFFFFFF#64

/-- The low limb `v[63:0]` (R10). -/
def lo (v : Word) : Limb := v.extractLsb' 0 64

/-- The high limb `v[127:64]` (R10). -/
def hi (v : Word) : Limb := v.extractLsb' 64 64

/-- The low half of a limb, `x[31:0]` (R91). -/
def loHalf (x : Limb) : Half := x.extractLsb' 0 32

/-- The high half of a limb, `x[63:32]` (R91). -/
def hiHalf (x : Limb) : Half := x.extractLsb' 32 32

/-- The word `{h, l}`: the high limb in the upper bits (R12). -/
def ofLimbs (h l : Limb) : Word := h ++ l

/-- The limb `{h, l}` (R12). -/
def ofHalves (h l : Half) : Limb := h ++ l

/-- `2^n`, the weight of bit `n` (R10). -/
def twoTo (n : Nat) : Nat := Nat.pow 2 n

/-- `u(v)`, the unsigned value (R11). -/
def uval (v : Word) : Nat := v.toNat

/-- The sign of a value, bit 127 (R11). -/
def signBit (v : Word) : Bool := v.getLsbD 127

/-- `s(v) = u(v) - 2^128·v[127]`, the two's-complement value (R11). -/
def sval (v : Word) : Int := (uval v : Int) - (twoTo 128 * (signBit v).toNat : Nat)

/-- `trunc_128` of an exact integer, negative ones modulo `2^128` (R12). -/
def trunc128 (x : Int) : Word := BitVec.ofInt 128 x

/-- `trunc_64` of an exact integer, negative ones modulo `2^64` (R12). -/
def trunc64 (x : Int) : Limb := BitVec.ofInt 64 x

/-- `zext_128` of a limb (R12). -/
def zextLimb (x : Limb) : Word := x.setWidth 128

/-- `sext_128` of a limb: bit 63 in every new bit (R12). -/
def sextLimb (x : Limb) : Word := x.signExtend 128

/-- `zext_128` of a single bit: `ZERO` or `ONE` (R12; the 0-or-1 form is decision D13 of spec/92_eei_decisions.md). -/
def zextBit (p : Bool) : Word := if p then one else zero

/-- `zext_128` of the four flag bits (R163). -/
def zextFlags (f : FlagBits) : Word := f.setWidth 128

/-- An exact integer that a signed 128-bit value represents: `-2^127 <= x <= 2^127 - 1` (R11, R104, R105). -/
def signedRange (x : Int) : Bool := decide (-2 ^ 127 ≤ x) && decide (x ≤ 2 ^ 127 - 1)

/-- The shift amount `n = u(b)`, all 128 bits of `b` (R64, R140). -/
def shiftAmount (b : Word) : Nat := uval b

end Sys2Proof.Machine
end

