-- ==== Sys2Proof/Machine/Flags.lean ====
section
/-! DEFINITION. The flag generator `F(a, b)` (R160), how a bit of its output is read (R32), and the predicates made from
it (R162). -/

namespace Sys2Proof.Machine

/-- `d = trunc_128(u(a) - u(b))` (R160). -/
def difference (a b : Word) : Word := trunc128 ((uval a : Int) - (uval b : Int))

/-- Z: the difference is zero (R160). -/
def zeroFlag (a b : Word) : Bool := decide (difference a b = zero)

/-- N: bit 127 of the difference (R160). -/
def signFlag (a b : Word) : Bool := signBit (difference a b)

/-- C: unsigned borrow (R160). -/
def carryFlag (a b : Word) : Bool := decide (uval a < uval b)

/-- V: the operand signs differ and the sign of the difference is not the minuend's (R160). -/
def overflowFlag (a b : Word) : Bool := (signBit a != signBit b) && (signBit (difference a b) != signBit a)

/-- `{V, C, N, Z}`, Z at bit 0 (R32, R160). -/
def packFlags (v c n z : Bool) : FlagBits := BitVec.ofBool v ++ BitVec.ofBool c ++ BitVec.ofBool n ++ BitVec.ofBool z

/-- `F(a, b)` (R160). -/
def flagsOf (a b : Word) : FlagBits := packFlags (overflowFlag a b) (carryFlag a b) (signFlag a b) (zeroFlag a b)

/-- `flags[0]` (R32). -/
def zOf (f : FlagBits) : Bool := f.getLsbD 0

/-- `flags[1]` (R32). -/
def nOf (f : FlagBits) : Bool := f.getLsbD 1

/-- `flags[2]` (R32). -/
def cOf (f : FlagBits) : Bool := f.getLsbD 2

/-- `flags[3]` (R32). -/
def vOf (f : FlagBits) : Bool := f.getLsbD 3

/-- `Z`: equality (R162); on `F(a, b)` exactly `u(a) = u(b)` (R173, lemma equalFrom_iff). -/
def equalFrom (f : FlagBits) : Bool := zOf f

/-- `C`: unsigned less-than (R162); on `F(a, b)` exactly `u(a) < u(b)` (R173, lemma unsignedLessFrom_iff). -/
def unsignedLessFrom (f : FlagBits) : Bool := cOf f

/-- `C or Z`: unsigned less-or-equal (R162); on `F(a, b)` exactly `u(a) <= u(b)` (R173, lemma unsignedLessEqFrom_iff). -/
def unsignedLessEqFrom (f : FlagBits) : Bool := cOf f || zOf f

/-- `N xor V`: signed less-than (R162); on `F(a, b)` exactly `s(a) < s(b)` (R173, lemma signedLessFrom_iff). -/
def signedLessFrom (f : FlagBits) : Bool := nOf f ^^ vOf f

/-- `Z or (N xor V)`: signed less-or-equal (R162); on `F(a, b)` exactly `s(a) <= s(b)` (R173, lemma signedLessEqFrom_iff). -/
def signedLessEqFrom (f : FlagBits) : Bool := zOf f || (nOf f ^^ vOf f)

end Sys2Proof.Machine
end

