-- ==== Sys2Proof/Machine/Ops.lean ====
section
/-! DEFINITION. The named operations over the ports. There is no register file and no memory (R33, R50), and no
exception to take or to return from (R200, R206): the one error indication is `ill`, and `driveIllegal` is its one
shared operation (R201). -/

namespace Sys2Proof.Machine

/-- The four outputs of a state (R32). -/
def State.outputs (s : State) : Outputs := ⟨s.y, s.ovf, s.flags, s.ill⟩

/-- The host drives the three inputs (R31, R224). -/
def State.present (op : OpCode) (a b : Word) (s : State) : State := { s with op := op, a := a, b := b }

/-- All four outputs driven together (R57). -/
def State.drive (o : Outputs) (s : State) : State := { s with y := o.y, ovf := o.ovf, flags := o.flags, ill := o.ill }

/-- An assigned code's evaluation: `y` and `ovf` by its rule, `flags <- F(a, b)` and `ill <- 0` (R35). -/
def driveResult (y : Word) (ovf : Bool) (s : State) : State := s.drive ⟨y, ovf, flagsOf s.a s.b, false⟩

/-- A reserved code's evaluation: `y <- 0`, `ovf <- 0`, `ill <- 1`, and `flags <- F(a, b)` still (R66, R201). -/
def driveIllegal (s : State) : State := s.drive ⟨zero, false, flagsOf s.a s.b, true⟩

/-- The outcome of an operation with an overflow indication of its own ("checked", R16). -/
def complete (y : Word) (ovf : Bool) (s : State) : Host.Outcome State Fault Refusal := .next (driveResult y ovf s)

/-- The outcome of an operation without one: `ovf <- 0` (R36). -/
def completeUnchecked (y : Word) (s : State) : Host.Outcome State Fault Refusal := complete y false s

/-- The outcome of a predicate: `y` is `ZERO` or `ONE` (R162, decision D13). -/
def completePredicate (p : Bool) (s : State) : Host.Outcome State Fault Refusal := completeUnchecked (zextBit p) s

/-- The operation code presented to the unit: CORE fetches nothing, and the host drives `op` (R59). -/
def fetchOp (s : State) : OpCode := s.op

end Sys2Proof.Machine
end

