-- ==== Sys2Proof/Machine/AddSub.lean ====
section
/-! DEFINITION. ADD, SUB, ADDS, SUBS, SUB64 (spec/42_addsub.md). -/

namespace Sys2Proof.Machine

/-- `trunc_128(u(a) + u(b))` (R100, R104). -/
def addResult (a b : Word) : Word := trunc128 ((uval a : Int) + (uval b : Int))

/-- The carry out of bit 127 (R100). -/
def addCarry (a b : Word) : Bool := decide (2 ^ 128 ≤ uval a + uval b)

/-- `trunc_128(u(a) - u(b))` (R102, R105). -/
def subResult (a b : Word) : Word := trunc128 ((uval a : Int) - (uval b : Int))

/-- The borrow out of bit 127 (R102). -/
def subBorrow (a b : Word) : Bool := decide (uval a < uval b)

/-- The true signed sum is not representable (R104; 90_conflicts.md C1). -/
def addOverflow (a b : Word) : Bool := !signedRange (sval a + sval b)

/-- The true signed difference is not representable (R105; 90_conflicts.md C1). -/
def subOverflow (a b : Word) : Bool := !signedRange (sval a - sval b)

/-- `trunc_128(u(a) - u(b[63:0]))` (R106). -/
def sub64Result (a b : Word) : Word := trunc128 ((uval a : Int) - ((lo b).toNat : Int))

/-- `u(a) < u(b[63:0])` (R106). -/
def sub64Borrow (a b : Word) : Bool := decide (uval a < (lo b).toNat)

/-- ADD (R100). -/
def execAdd (s : State) : Host.Outcome State Fault Refusal := complete (addResult s.a s.b) (addCarry s.a s.b) s

/-- SUB (R102). -/
def execSub (s : State) : Host.Outcome State Fault Refusal := complete (subResult s.a s.b) (subBorrow s.a s.b) s

/-- ADDS (R104). -/
def execAdds (s : State) : Host.Outcome State Fault Refusal := complete (addResult s.a s.b) (addOverflow s.a s.b) s

/-- SUBS (R105). -/
def execSubs (s : State) : Host.Outcome State Fault Refusal := complete (subResult s.a s.b) (subOverflow s.a s.b) s

/-- SUB64 (R106); the flags are those of the full `b`. -/
def execSub64 (s : State) : Host.Outcome State Fault Refusal := complete (sub64Result s.a s.b) (sub64Borrow s.a s.b) s

end Sys2Proof.Machine
end

