-- ==== Sys2Proof/Machine/Compare.lean ====
section
/-! DEFINITION. CMP and the nine predicates (spec/46_compare.md). Each predicate is made from the flags as R162 gives
it; a mirror form takes the flags of the swapped operands, which stay inside the unit, while the `flags` port shows
`F(a, b)` as always. -/

namespace Sys2Proof.Machine

/-- CMP: the flags as a value (R163). -/
def execCmp (s : State) : Host.Outcome State Fault Refusal := completeUnchecked (zextFlags (flagsOf s.a s.b)) s

/-- EQ (R164): `u(a) = u(b)` (R173, lemma execEq_exact). -/
def execEq (s : State) : Host.Outcome State Fault Refusal := completePredicate (equalFrom (flagsOf s.a s.b)) s

/-- LTU (R165): `u(a) < u(b)` (R173, lemma execLtu_exact). -/
def execLtu (s : State) : Host.Outcome State Fault Refusal := completePredicate (unsignedLessFrom (flagsOf s.a s.b)) s

/-- LEU (R166): `u(a) <= u(b)` (R173, lemma execLeu_exact). -/
def execLeu (s : State) : Host.Outcome State Fault Refusal := completePredicate (unsignedLessEqFrom (flagsOf s.a s.b)) s

/-- GTU, as LTU(b, a) (R167): `u(a) > u(b)` (R173, lemma execGtu_exact). -/
def execGtu (s : State) : Host.Outcome State Fault Refusal := completePredicate (unsignedLessFrom (flagsOf s.b s.a)) s

/-- GEU, as LEU(b, a) (R168): `u(a) >= u(b)` (R173, lemma execGeu_exact). -/
def execGeu (s : State) : Host.Outcome State Fault Refusal := completePredicate (unsignedLessEqFrom (flagsOf s.b s.a)) s

/-- LTS (R169): `s(a) < s(b)` (R173, lemma execLts_exact). -/
def execLts (s : State) : Host.Outcome State Fault Refusal := completePredicate (signedLessFrom (flagsOf s.a s.b)) s

/-- LES (R170): `s(a) <= s(b)` (R173, lemma execLes_exact). -/
def execLes (s : State) : Host.Outcome State Fault Refusal := completePredicate (signedLessEqFrom (flagsOf s.a s.b)) s

/-- GTS, as LTS(b, a) (R171): `s(a) > s(b)` (R173, lemma execGts_exact). -/
def execGts (s : State) : Host.Outcome State Fault Refusal := completePredicate (signedLessFrom (flagsOf s.b s.a)) s

/-- GES, as LES(b, a) (R172): `s(a) >= s(b)` (R173, lemma execGes_exact). -/
def execGes (s : State) : Host.Outcome State Fault Refusal := completePredicate (signedLessEqFrom (flagsOf s.b s.a)) s

end Sys2Proof.Machine
end

