-- ==== Sys2Proof/Machine/Conversion.lean ====
section
/-! DEFINITION. ZEXT64, SEXT64, SIGN (spec/40_conversion.md). -/

namespace Sys2Proof.Machine

/-- `zext_128(a[63:0])` (R80). -/
def zext64Result (a : Word) : Word := zextLimb (lo a)

/-- `sext_128(a[63:0])` (R81). -/
def sext64Result (a : Word) : Word := sextLimb (lo a)

/-- `zext_128(a[127])` (R82). -/
def signResult (a : Word) : Word := zextBit (signBit a)

/-- ZEXT64 (R80). -/
def execZext64 (s : State) : Host.Outcome State Fault Refusal := completeUnchecked (zext64Result s.a) s

/-- SEXT64 (R81). -/
def execSext64 (s : State) : Host.Outcome State Fault Refusal := completeUnchecked (sext64Result s.a) s

/-- SIGN (R82). -/
def execSign (s : State) : Host.Outcome State Fault Refusal := completeUnchecked (signResult s.a) s

end Sys2Proof.Machine
end

