-- ==== Sys2Proof/Machine/Derived.lean ====
section
/-! DEFINITION. NEG and ABS (spec/43_derived.md). -/

namespace Sys2Proof.Machine

/-- `trunc_128(u(~a) + 1)` (R120). -/
def negResult (a : Word) : Word := trunc128 ((uval (~~~a) : Int) + 1)

/-- `a` or its negation, by bit 127 (R122). -/
def absResult (a : Word) : Word := if signBit a then trunc128 ((uval (~~~a) : Int) + 1) else a

/-- NEG (R120). -/
def execNeg (s : State) : Host.Outcome State Fault Refusal := completeUnchecked (negResult s.a) s

/-- ABS (R122). -/
def execAbs (s : State) : Host.Outcome State Fault Refusal := completeUnchecked (absResult s.a) s

end Sys2Proof.Machine
end

