-- ==== Sys2Proof/Machine/Logic.lean ====
section
/-! DEFINITION. AND, OR, XOR, NOT (spec/44_logic.md). -/

namespace Sys2Proof.Machine

/-- `a & b` (R130). -/
def andResult (a b : Word) : Word := a &&& b

/-- `a | b` (R131). -/
def orResult (a b : Word) : Word := a ||| b

/-- `a ^ b` (R132). -/
def xorResult (a b : Word) : Word := a ^^^ b

/-- `~a` (R133). -/
def notResult (a : Word) : Word := ~~~a

/-- AND (R130). -/
def execAnd (s : State) : Host.Outcome State Fault Refusal := completeUnchecked (andResult s.a s.b) s

/-- OR (R131). -/
def execOr (s : State) : Host.Outcome State Fault Refusal := completeUnchecked (orResult s.a s.b) s

/-- XOR (R132). -/
def execXor (s : State) : Host.Outcome State Fault Refusal := completeUnchecked (xorResult s.a s.b) s

/-- NOT (R133). -/
def execNot (s : State) : Host.Outcome State Fault Refusal := completeUnchecked (notResult s.a) s

end Sys2Proof.Machine
end

