-- ==== Sys2Proof/Machine/Multiply.lean ====
section
/-! DEFINITION. MULW and MUL (spec/41_multiply.md). The exact product is the meaning; the source's limb algorithms are in
Machine/Limbs.lean. -/

namespace Sys2Proof.Machine

/-- `u(a[63:0]) * u(b[63:0])`, exact (R90). -/
def mulwResult (a b : Word) : Word := trunc128 ((lo a).toNat * (lo b).toNat)

/-- `trunc_128(P)` with `P = u(a) * u(b)` (R93). -/
def mulResult (a b : Word) : Word := trunc128 ((uval a : Int) * (uval b : Int))

/-- `P >= 2^128` (R93). -/
def mulOverflow (a b : Word) : Bool := decide (2 ^ 128 ≤ uval a * uval b)

/-- MULW (R90). -/
def execMulw (s : State) : Host.Outcome State Fault Refusal := completeUnchecked (mulwResult s.a s.b) s

/-- MUL (R93). -/
def execMul (s : State) : Host.Outcome State Fault Refusal := complete (mulResult s.a s.b) (mulOverflow s.a s.b) s

end Sys2Proof.Machine
end

