-- ==== Sys2Proof/Machine/Shift.lean ====
section
/-! DEFINITION. SHL, SHR, SAR (spec/45_shift.md), each for every amount `n = u(b)` (R140), 128 and more included
(R143). -/

namespace Sys2Proof.Machine

/-- `trunc_128(u(a) * 2^n)`, and 0 for `n >= 128` (R143, R144). -/
def shlResult (a : Word) (n : Nat) : Word := if 128 ≤ n then zero else trunc128 ((uval a : Int) * (twoTo n : Int))

/-- `floor(u(a) / 2^n)`, and 0 for `n >= 128` (R143, R146). -/
def shrResult (a : Word) (n : Nat) : Word := if 128 ≤ n then zero else trunc128 (uval a / twoTo n : Nat)

/-- `trunc_128(floor(s(a) / 2^n))`, and copies of the sign for `n >= 128` (R143, R148). The divisor is positive, so
Lean's integer `/`, which rounds toward minus infinity there, is the floor. -/
def sarResult (a : Word) (n : Nat) : Word :=
  if 128 ≤ n then (if signBit a then maxUnsigned else zero) else trunc128 (sval a / (twoTo n : Int))

/-- SHL (R144). -/
def execShl (s : State) : Host.Outcome State Fault Refusal := completeUnchecked (shlResult s.a (shiftAmount s.b)) s

/-- SHR (R146). -/
def execShr (s : State) : Host.Outcome State Fault Refusal := completeUnchecked (shrResult s.a (shiftAmount s.b)) s

/-- SAR (R148). -/
def execSar (s : State) : Host.Outcome State Fault Refusal := completeUnchecked (sarResult s.a (shiftAmount s.b)) s

end Sys2Proof.Machine
end

