-- ==== Sys2Proof/Machine/Dispatch.lean ====
section
/-! DEFINITION. One arm per operation of R61. -/

namespace Sys2Proof.Machine

/-- The evaluation of an operation on the present inputs (R35). -/
def exec (i : Instr) (s : State) : Host.Outcome State Fault Refusal :=
  match i with
  | .zext64 => Sys2Proof.Machine.execZext64 s
  | .sext64 => Sys2Proof.Machine.execSext64 s
  | .sign => Sys2Proof.Machine.execSign s
  | .mulw => Sys2Proof.Machine.execMulw s
  | .mul => Sys2Proof.Machine.execMul s
  | .add => Sys2Proof.Machine.execAdd s
  | .sub => Sys2Proof.Machine.execSub s
  | .adds => Sys2Proof.Machine.execAdds s
  | .subs => Sys2Proof.Machine.execSubs s
  | .sub64 => Sys2Proof.Machine.execSub64 s
  | .neg => Sys2Proof.Machine.execNeg s
  | .abs => Sys2Proof.Machine.execAbs s
  | .and => Sys2Proof.Machine.execAnd s
  | .or => Sys2Proof.Machine.execOr s
  | .xor => Sys2Proof.Machine.execXor s
  | .not => Sys2Proof.Machine.execNot s
  | .shl => Sys2Proof.Machine.execShl s
  | .shr => Sys2Proof.Machine.execShr s
  | .sar => Sys2Proof.Machine.execSar s
  | .cmp => Sys2Proof.Machine.execCmp s
  | .eq => Sys2Proof.Machine.execEq s
  | .ltu => Sys2Proof.Machine.execLtu s
  | .leu => Sys2Proof.Machine.execLeu s
  | .gtu => Sys2Proof.Machine.execGtu s
  | .geu => Sys2Proof.Machine.execGeu s
  | .lts => Sys2Proof.Machine.execLts s
  | .les => Sys2Proof.Machine.execLes s
  | .gts => Sys2Proof.Machine.execGts s
  | .ges => Sys2Proof.Machine.execGes s

end Sys2Proof.Machine
end

