-- ==== Sys2Proof/Machine/Step.lean ====
section
/-! DEFINITION. One evaluation (R35, R223): decode the presented code, then the operation's rule, or the reserved
behaviour. `T_PD` has passed within the step: the outputs are sampled settled (R224, log entry 4). -/

namespace Sys2Proof.Machine

/-- One evaluation of the present inputs (R35). A reserved code is no fault of CORE: it drives the outputs of R66
(R202, "a model of CORE alone returns ill = 1"). -/
def step (s : State) : Host.Outcome State Fault Refusal :=
  match decodeOp (fetchOp s) with
  | .ok i => exec i s
  | .error _ => .next (driveIllegal s)

/-- The host presents the code `w` on the `op` port; `a`, `b` and the last sampled outputs stay (log entry 2). -/
def State.withFetchWord (s : State) (nbits w : Nat) : State := s.present (BitVec.ofNat 6 (w % 2 ^ nbits)) s.a s.b

end Sys2Proof.Machine
end

