-- ==== Sys2Proof/Machine/Evaluate.lean ====
section
/-! DEFINITION. The evaluation function `CORE(op, a, b) = (y, ovf, flags, ill)` of R35, read off the step. -/

namespace Sys2Proof.Machine

/-- The outputs that an outcome shows, if it is a next state. -/
def shownOutputs : Host.Outcome State Fault Refusal → Outputs
  | .next t => t.outputs
  | .fault _ => State.reset.outputs
  | .refused _ => State.reset.outputs

/-- `CORE(op, a, b)` (R35): the outputs of one step on these inputs. -/
def evaluate (op : OpCode) (a b : Word) : Outputs := shownOutputs (step (State.reset.present op a b))

end Sys2Proof.Machine
end

