-- ==== Sys2Proof/Machine/HostImage.lean ====
section
/-! DEFINITION. The host's own memory image of a 128-bit value as two limbs, in the order `HOST_LIMB_ORDER` (R54). CORE
never reads it. The bytes within a limb are not modelled (log entry 10). -/

namespace Sys2Proof.Machine

/-- The limbs of `v` as the host lays them out, the one at the lower address first (R54). -/
def storeLimbs (o : LimbOrder) (v : Word) : List Limb :=
  match o with
  | .loFirst => [lo v, hi v]
  | .hiFirst => [hi v, lo v]

/-- The value whose limbs stand in the host's memory in this order (R54); a value has exactly two limbs. -/
def loadLimbs (o : LimbOrder) : List Limb → Option Word
  | [x, z] =>
    match o with
    | .loFirst => some (ofLimbs z x)
    | .hiFirst => some (ofLimbs x z)
  | [] => none
  | [_] => none
  | _ :: _ :: _ :: _ => none

end Sys2Proof.Machine
end

