-- ==== Sys2Proof/Machine/Limbs.lean ====
section
/-! DEFINITION. The limb structures that the source gives for the units: the 32-bit partial products (R91), the checked
multiply (R94), the two-digit adder and subtractors (R101, R103, R107) and the limb forms of the shifts (R145, R147,
R149). No port shows which structure a build uses (R92, R141); the operations themselves are defined by their exact
rules. Every function but `mulwLimbs` and the shifts answers `(y, ovf)`. -/

namespace Sys2Proof.Machine

/-- A limb shifted left; by 64 or more it is 0 (R13). -/
def limbShl (x : Limb) (k : Nat) : Limb := if 64 ≤ k then 0 else x <<< k

/-- A limb shifted right; by 64 or more it is 0 (R13). -/
def limbShr (x : Limb) (k : Nat) : Limb := if 64 ≤ k then 0 else x >>> k

/-- `p00 = a0 * b0`, exact (R91). -/
def p00 (x z : Limb) : Nat := (loHalf x).toNat * (loHalf z).toNat

/-- `p10 = a1 * b0`, exact (R91). -/
def p10 (x z : Limb) : Nat := (hiHalf x).toNat * (loHalf z).toNat

/-- `p01 = a0 * b1`, exact (R91). -/
def p01 (x z : Limb) : Nat := (loHalf x).toNat * (hiHalf z).toNat

/-- `p11 = a1 * b1`, exact (R91). -/
def p11 (x z : Limb) : Nat := (hiHalf x).toNat * (hiHalf z).toNat

/-- `mid = (p00 >> 32) + p10[31:0] + p01[31:0]` (R91). -/
def midSum (x z : Limb) : Nat := p00 x z / 2 ^ 32 + p10 x z % 2 ^ 32 + p01 x z % 2 ^ 32

/-- The exact high limb of the product, `p11 + (p10 >> 32) + (p01 >> 32) + (mid >> 32)` (R91). -/
def highSum (x z : Limb) : Nat := p11 x z + p10 x z / 2 ^ 32 + p01 x z / 2 ^ 32 + midSum x z / 2 ^ 32

/-- The 64×64→128 product from the 32-bit partial products (R91). -/
def mulwLimbs (x z : Limb) : Word :=
  ofLimbs (trunc64 (highSum x z)) (ofHalves (BitVec.ofNat 32 (midSum x z)) (BitVec.ofNat 32 (p00 x z)))

/-- The cross term `c1 = u(a.hi) * u(b.lo)` (R94). -/
def cross1 (a b : Word) : Nat := (hi a).toNat * (lo b).toNat

/-- The cross term `c2 = u(a.lo) * u(b.hi)` (R94). -/
def cross2 (a b : Word) : Nat := (lo a).toNat * (hi b).toNat

/-- `L.hi + trunc_64(c1) + trunc_64(c2)`, exact, with `L` the product of the low limbs (R94). -/
def mulHighSum (a b : Word) : Nat :=
  (hi (mulwLimbs (lo a) (lo b))).toNat + cross1 a b % 2 ^ 64 + cross2 a b % 2 ^ 64

/-- The source's checked multiply (R94), with `L` made from the partial products. -/
def mulLimbs (a b : Word) : Word × Bool :=
  (ofLimbs (trunc64 (mulHighSum a b)) (lo (mulwLimbs (lo a) (lo b))),
    decide (2 ^ 64 ≤ cross1 a b) || decide (2 ^ 64 ≤ cross2 a b) || (decide (hi a ≠ 0) && decide (hi b ≠ 0)) ||
      decide (2 ^ 64 ≤ mulHighSum a b))

/-- The two-digit adder with a carry between the limbs (R101). -/
def addLimbs (a b : Word) : Word × Bool :=
  let tLo := (lo a).toNat + (lo b).toNat
  let carryIn := decide (2 ^ 64 ≤ tLo)
  let tHi := (hi a).toNat + (hi b).toNat + carryIn.toNat
  (ofLimbs (trunc64 tHi) (trunc64 tLo), decide (2 ^ 64 ≤ tHi))

/-- The two-digit subtractor with a borrow between the limbs (R103). -/
def subLimbs (a b : Word) : Word × Bool :=
  let tLo : Int := (lo a).toNat - (lo b).toNat
  let borrowIn := decide (tLo < 0)
  let tHi : Int := (hi a).toNat - (hi b).toNat - borrowIn.toNat
  (ofLimbs (trunc64 tHi) (trunc64 tLo), decide (tHi < 0))

/-- The fast path: the high limb subtracts only the borrow (R107). -/
def sub64Limbs (a b : Word) : Word × Bool :=
  let tLo : Int := (lo a).toNat - (lo b).toNat
  let borrowIn := decide (tLo < 0)
  let tHi : Int := (hi a).toNat - borrowIn.toNat
  (ofLimbs (trunc64 tHi) (trunc64 tLo), decide (tHi < 0))

/-- The limb form of SHL, for `n` up to 127 (R145). -/
def shlLimbs (a : Word) (n : Nat) : Word :=
  if n < 64 then ofLimbs (limbShl (hi a) n ||| limbShr (lo a) (64 - n)) (limbShl (lo a) n)
  else ofLimbs (limbShl (lo a) (n - 64)) 0

/-- The limb form of SHR, for `n` up to 127 (R147). -/
def shrLimbs (a : Word) (n : Nat) : Word :=
  if n < 64 then ofLimbs (limbShr (hi a) n) (limbShr (lo a) n ||| limbShl (hi a) (64 - n))
  else ofLimbs 0 (limbShr (hi a) (n - 64))

/-- `fill(k) = ~((1 << k) - 1)`: ones in bits `63..k`, and `fill(64) = 0` (R149). -/
def signFill (k : Nat) : Limb := ~~~(limbShl 1 k - 1)

/-- The limb form of SAR, for `n` up to 127 (R149). -/
def sarLimbs (a : Word) (n : Nat) : Word :=
  if n < 64 then
    ofLimbs (limbShr (hi a) n ||| (if signBit a then signFill (64 - n) else 0))
      (limbShr (lo a) n ||| limbShl (hi a) (64 - n))
  else
    ofLimbs (if signBit a then 0xFFFFFFFFFFFFFFFF#64 else 0)
      (limbShr (hi a) (n - 64) ||| (if signBit a then signFill (128 - n) else 0))

end Sys2Proof.Machine
end

