-- ==== Sys2Proof/Machine/SeqRun.lean ====
section
/-! DEFINITION. The meaning of a host sequence (spec/30_encoding.md R69, R71): a model of the host's use of CORE, over
CORE's own step. A step whose evaluation gives `ill = 1` is a fault here (R202). -/

namespace Sys2Proof.Machine

/-- The host: the unit it drives, its variables by identifier (strictly rising), the line it stands at, and whether it
has halted (R69). -/
structure SeqState where
  /-- The unit. -/
  core : State
  /-- Each variable with the outputs it received. -/
  vars : List (Nat × Outputs)
  /-- The index of the next line. -/
  pos : Nat
  /-- `halt` has been reached. -/
  halted : Bool
  deriving DecidableEq, Repr

/-- The outputs that the variable `x` holds. -/
def getVar (x : Nat) : List (Nat × Outputs) → Option Outputs
  | [] => none
  | (k, v) :: rest => if k = x then some v else getVar x rest

/-- `x` receives `(y, ovf, flags, ill)` (R69 `dest`); the list stays strictly rising. -/
def setVar (x : Nat) (o : Outputs) : List (Nat × Outputs) → List (Nat × Outputs)
  | [] => [(x, o)]
  | (k, v) :: rest =>
    if x < k then (x, o) :: (k, v) :: rest else if x = k then (x, o) :: rest else (k, v) :: setVar x o rest

/-- The canonical form of the variables: identifiers strictly rising. -/
def varsWf (vars : List (Nat × Outputs)) : Bool := decide (vars.Pairwise fun p q => p.1 < q.1)

/-- A variable of a start state holds a 128-bit value as its `y` (R69); its other parts are free (log entry 6). -/
def startValue (x : Nat) (v : Word) : Outputs := ⟨v, Config.startOvf x, Config.startFlags x, Config.startIll x⟩

/-- The host before its first line, with these variables given a value. -/
def seqStart (given : List (Nat × Word)) : SeqState :=
  ⟨State.reset, given.foldl (fun vars p => setVar p.1 (startValue p.1 p.2) vars) [], 0, false⟩

/-- The pattern of a constant of R69: a negative one is its two's-complement pattern. R69 puts no bound on a decimal or on
the hex digits: that a number which does not fit in 128 bits is taken modulo `2^128` is DESIGN CHOICE (log entry 12). -/
def constantPattern (x : Int) : Word := trunc128 x

/-- The value of an operand: an identifier means its `y` (R69). -/
def operandValue (vars : List (Nat × Outputs)) : SeqOperand → Except Fault Word
  | .const v => .ok v
  | .var x =>
    match getVar x vars with
    | some o => .ok o.y
    | none => .error (.unboundVariable x)

/-- The second operand of a step: a unary operation names one operand and the host drives `b = 0` (R69). -/
def secondValue (vars : List (Nat × Outputs)) : Option SeqOperand → Except Fault Word
  | none => .ok zero
  | some z => operandValue vars z

/-- The line that the label `l` marks: the first of the sequence (R69, log entry 8). -/
def findLabel (l : Nat) (prog : List SeqLine) : Option Nat :=
  prog.findIdx? fun line => line.labels.contains l

/-- `identifier.field == bit` of a branch (R69): `y` is compared whole (log entry 8), the others are single bits. -/
def fieldEquals (o : Outputs) (field : SeqField) (bit : Bool) : Bool :=
  match field with
  | .y => o.y == zextBit bit
  | .ovf => o.ovf == bit
  | .ill => o.ill == bit
  | .z => zOf o.flags == bit
  | .n => nOf o.flags == bit
  | .c => cOf o.flags == bit
  | .v => vOf o.flags == bit

/-- The host presents the triple `(op, a, b)`, lets CORE evaluate it, and gives `dest` the outputs (R69); `ill = 1` is a
fault (R202). -/
def runTriple (dest : Nat) (op : OpCode) (a b : Word) (h : SeqState) : Host.Outcome SeqState Fault Refusal :=
  match step (h.core.present op a b) with
  | .next t =>
    if t.ill then .fault (.illegalOp op)
    else .next { h with core := t, vars := setVar dest t.outputs h.vars, pos := h.pos + 1 }
  | .fault r => .fault r
  | .refused r => .refused r

/-- A step with both operands to be read, the first one first. -/
def runOperands (dest : Nat) (op : OpCode) (x : SeqOperand) (z : Option SeqOperand) (h : SeqState) :
    Host.Outcome SeqState Fault Refusal :=
  match operandValue h.vars x with
  | .error f => .fault f
  | .ok a =>
    match secondValue h.vars z with
    | .error f => .fault f
    | .ok b => runTriple dest op a b h

/-- A host branch (R69, R71): to the line after the label when the condition holds, else to the next line. -/
def runBranch (prog : List SeqLine) (x : Nat) (field : SeqField) (same bit : Bool) (target : Nat) (h : SeqState) :
    Host.Outcome SeqState Fault Refusal :=
  match getVar x h.vars with
  | none => .fault (.unboundVariable x)
  | some o =>
    if fieldEquals o field bit = same then
      match findLabel target prog with
      | some p => .next { h with pos := p }
      | none => .fault (.unknownLabel target)
    else .next { h with pos := h.pos + 1 }

/-- One statement of a host sequence (R69). -/
def runStmt (prog : List SeqLine) (h : SeqState) : SeqStmt → Host.Outcome SeqState Fault Refusal
  | .eval dest i x z =>
    if operandCountFits i z then runOperands dest (encode i) x z h else .fault (.operandCount (1 + z.toList.length))
  | .raw dest op x z => runOperands dest op x (some z) h
  | .branch x field same bit target => runBranch prog x field same bit target h
  | .halt => .next { h with halted := true }

/-- One line of a host sequence; a halted host stays as it is (log entry 8). -/
def seqStep (prog : List SeqLine) (h : SeqState) : Host.Outcome SeqState Fault Refusal :=
  if h.halted then .next h
  else
    match prog[h.pos]? with
    | some line => runStmt prog h line.stmt
    | none => .fault (.ranOffEnd h.pos)

/-- `k` lines of a host sequence. -/
def seqRun (prog : List SeqLine) : Nat → SeqState → Host.Outcome SeqState Fault Refusal
  | 0, h => .next h
  | k + 1, h =>
    match seqStep prog h with
    | .next h' => seqRun prog k h'
    | .fault r => .fault r
    | .refused r => .refused r

end Sys2Proof.Machine
end

