-- ==== Sys2Proof/Machine/Pseudo.lean ====
section
/-! DEFINITION. The expansions of the pseudo-operations (spec/30_encoding.md R70). Each is a host spelling with no code of
its own. -/

namespace Sys2Proof.Machine

/-- The steps that a pseudo-operation stands for, with `dest` receiving the result (R70). Where the table says "`ovf`
ignored", the step is the checked one and the host does not read `dest.ovf`. The variable that `NE` writes twice is `dest` (log entry 9). -/
def expandPseudo (dest : Nat) : Pseudo → List SeqStmt
  | .addw x z => [.eval dest .add x (some z)]
  | .subw x z => [.eval dest .sub x (some z)]
  | .mull x z => [.eval dest .mul x (some z)]
  | .mov x => [.eval dest .or x (some x)]
  | .clr => [.eval dest .xor (.const zero) (some (.const zero))]
  | .trunc64 x => [.eval dest .zext64 x none]
  | .ne x z => [.eval dest .eq x (some z), .eval dest .xor (.var dest) (some (.const one))]
  | .lsl x n => [.eval dest .shl x (some n)]
  | .lsr x n => [.eval dest .shr x (some n)]
  | .asr x n => [.eval dest .sar x (some n)]

/-- Statements one after another, for an expansion: no branch is among them, so no line is looked up. -/
def runStmts : List SeqStmt → SeqState → Host.Outcome SeqState Fault Refusal
  | [], h => .next h
  | st :: rest, h =>
    match runStmt [] h st with
    | .next h' => runStmts rest h'
    | .fault r => .fault r
    | .refused r => .refused r

/-- The 64-bit value that `TRUNC64` gives, `y[63:0]` (R70, R83). -/
def narrowed (o : Outputs) : Limb := lo o.y

/-- `U2S`: no step, the same bits (R39, R70). -/
def unsignedToSigned (x : Word) : Word := x

/-- `S2U`: no step, the same bits (R39, R70). -/
def signedToUnsigned (x : Word) : Word := x

end Sys2Proof.Machine
end

