-- ==== Sys2Proof/Machine/Sampling.lean ====
section
/-! DEFINITION. When the host samples the outputs (R224, R225): after `T_PD` it sees the evaluation, before that a free
value on every output. -/

namespace Sys2Proof.Machine

/-- An early sample: each output shows a value that nothing constrains, drawn independently (R224; item 6 of
93_implementation_defined.md). The inputs stay, and the next early sample draws afresh. -/
def sampleEarly (s : State) : State :=
  { s with
    y := Config.earlyY s.draws
    ovf := Config.earlyOvf s.draws
    flags := Config.earlyFlags s.draws
    ill := Config.earlyIll s.draws
    draws := s.draws + 1 }

/-- The host samples the outputs when the inputs have been held unchanged for `held`, where the build's propagation
delay is `tPD` (R9, R224). -/
def sample (tPD held : Nat) (s : State) : Host.Outcome State Fault Refusal :=
  if tPD ≤ held then step s else .next (sampleEarly s)

end Sys2Proof.Machine
end

