-- ==== Sys2Proof/Safety.lean ====
section
/-! DEFINITION. The terms that claims use: what an evaluation must leave alone, the contract of the outputs in exact
integers, and the settled states. The contract is written from the rules a second time and names none of the functions
that the meanings call. -/

namespace Sys2Proof.Machine

/-- The inputs of CORE and the model's own counter are unchanged: no evaluation writes an input (R33, R57). -/
def InputsHeld (s t : State) : Prop := t.op = s.op ∧ t.a = s.a ∧ t.b = s.b ∧ t.draws = s.draws

/-- The flags in exact integers: Z iff `a = b`; N iff bit 127 of the wrapped difference is set; C iff `u(a) < u(b)`; V
iff the true signed difference is not representable (R160, R105). -/
def FlagsContract (a b : Word) (f : FlagBits) : Prop :=
  (f.getLsbD 0 = true ↔ a = b) ∧ (f.getLsbD 1 = true ↔ 2 ^ 127 ≤ ((a.toNat : Int) - b.toNat) % 2 ^ 128) ∧
    (f.getLsbD 2 = true ↔ a.toNat < b.toNat) ∧
    (f.getLsbD 3 = true ↔ ¬(-2 ^ 127 ≤ a.toInt - b.toInt ∧ a.toInt - b.toInt ≤ 2 ^ 127 - 1))

/-- A predicate's result: `ONE` where it holds, else `ZERO` (decision D13 of spec/92_eei_decisions.md). -/
def BitResult (y : Word) (p : Prop) : Prop := (p → y.toNat = 1) ∧ (¬p → y.toNat = 0)

/-- What `y` and `ovf` of an operation must be, in exact integers or bit by bit (the rule of each operation). -/
def ResultContract (i : Instr) (a b y : Word) (ovf : Bool) : Prop :=
  match i with
  | .zext64 => y.toNat = a.toNat % 2 ^ 64 ∧ ovf = false
  | .sext64 => y.toInt = Int.bmod a.toNat (2 ^ 64) ∧ ovf = false
  | .sign => BitResult y (a.toInt < 0) ∧ ovf = false
  | .mulw => y.toNat = (a.toNat % 2 ^ 64) * (b.toNat % 2 ^ 64) ∧ ovf = false
  | .mul => y.toNat = a.toNat * b.toNat % 2 ^ 128 ∧ (ovf = true ↔ 2 ^ 128 ≤ a.toNat * b.toNat)
  | .add => y.toNat = (a.toNat + b.toNat) % 2 ^ 128 ∧ (ovf = true ↔ 2 ^ 128 ≤ a.toNat + b.toNat)
  | .sub => (y.toNat : Int) = ((a.toNat : Int) - b.toNat) % 2 ^ 128 ∧ (ovf = true ↔ a.toNat < b.toNat)
  | .adds => y.toInt = Int.bmod (a.toInt + b.toInt) (2 ^ 128) ∧
      (ovf = true ↔ ¬(-2 ^ 127 ≤ a.toInt + b.toInt ∧ a.toInt + b.toInt ≤ 2 ^ 127 - 1))
  | .subs => y.toInt = Int.bmod (a.toInt - b.toInt) (2 ^ 128) ∧
      (ovf = true ↔ ¬(-2 ^ 127 ≤ a.toInt - b.toInt ∧ a.toInt - b.toInt ≤ 2 ^ 127 - 1))
  | .sub64 => (y.toNat : Int) = ((a.toNat : Int) - (b.toNat % 2 ^ 64 : Nat)) % 2 ^ 128 ∧
      (ovf = true ↔ a.toNat < b.toNat % 2 ^ 64)
  | .neg => y.toNat = (2 ^ 128 - a.toNat) % 2 ^ 128 ∧ ovf = false
  | .abs => y.toNat = a.toInt.natAbs ∧ ovf = false
  | .and => (∀ k, k < 128 → y.getLsbD k = (a.getLsbD k && b.getLsbD k)) ∧ ovf = false
  | .or => (∀ k, k < 128 → y.getLsbD k = (a.getLsbD k || b.getLsbD k)) ∧ ovf = false
  | .xor => (∀ k, k < 128 → y.getLsbD k = (a.getLsbD k != b.getLsbD k)) ∧ ovf = false
  | .not => (∀ k, k < 128 → y.getLsbD k = !a.getLsbD k) ∧ ovf = false
  | .shl => (∀ k, k < 128 → y.getLsbD k = (decide (b.toNat ≤ k) && a.getLsbD (k - b.toNat))) ∧ ovf = false
  | .shr => (∀ k, k < 128 → y.getLsbD k = a.getLsbD (k + b.toNat)) ∧ ovf = false
  | .sar => (∀ k, k < 128 → y.getLsbD k = if k + b.toNat < 128 then a.getLsbD (k + b.toNat) else a.getLsbD 127) ∧
      ovf = false
  | .cmp => (∃ f : FlagBits, FlagsContract a b f ∧ y.toNat = f.toNat) ∧ ovf = false
  | .eq => BitResult y (a = b) ∧ ovf = false
  | .ltu => BitResult y (a.toNat < b.toNat) ∧ ovf = false
  | .leu => BitResult y (a.toNat ≤ b.toNat) ∧ ovf = false
  | .gtu => BitResult y (a.toNat > b.toNat) ∧ ovf = false
  | .geu => BitResult y (a.toNat ≥ b.toNat) ∧ ovf = false
  | .lts => BitResult y (a.toInt < b.toInt) ∧ ovf = false
  | .les => BitResult y (a.toInt ≤ b.toInt) ∧ ovf = false
  | .gts => BitResult y (a.toInt > b.toInt) ∧ ovf = false
  | .ges => BitResult y (a.toInt ≥ b.toInt) ∧ ovf = false

/-- What `CORE(op, a, b)` must be (R35, R66): the flags whatever the code is; `ill = 0` and the operation's result for an
assigned code; zeros and `ill = 1` for any other. -/
def Contract (op : OpCode) (a b : Word) (o : Outputs) : Prop :=
  FlagsContract a b o.flags ∧ (∀ i, encode i = op → o.ill = false ∧ ResultContract i a b o.y o.ovf) ∧
    ((∀ i, encode i ≠ op) → o.y = 0#128 ∧ o.ovf = false ∧ o.ill = true)

/-- The outputs are those of the present inputs (R221). -/
def Settled (s : State) : Prop := Contract s.op s.a s.b s.outputs

/-- The operation completes from `s` with a result of which `P` holds; the flags are those of `a - b`, `ill` is 0, and
the inputs are left alone. -/
def CompletesWith (i : Instr) (s : State) (P : Word → Bool → Prop) : Prop :=
  ∃ t, exec i s = .next t ∧ P t.y t.ovf ∧ FlagsContract s.a s.b t.flags ∧ t.ill = false ∧ InputsHeld s t

/-- The same `y` and `ovf` for two pairs of operands under one code (R63). -/
def SameResult (op : OpCode) (a b a' b' : Word) : Prop :=
  (evaluate op a b).y = (evaluate op a' b').y ∧ (evaluate op a b).ovf = (evaluate op a' b').ovf

/-- The expansion of a pseudo-operation runs through from `h` and leaves in `dest` a result of which `P` holds (R70). -/
def PseudoGives (dest : Nat) (p : Pseudo) (h : SeqState) (P : Word → Prop) : Prop :=
  ∃ t o, runStmts (expandPseudo dest p) h = .next t ∧ getVar dest t.vars = some o ∧ P o.y

/-- The invariant of a host sequence: the variables are in canonical form and the unit is settled. -/
def SeqInv (h : SeqState) : Prop := varsWf h.vars = true ∧ Settled h.core

/-- The 35 reserved codes, as R66 lists them. -/
def reservedCodes : List Nat :=
  [0x03, 0x04, 0x05, 0x06, 0x07] ++ [0x0A, 0x0B, 0x0C, 0x0D, 0x0E, 0x0F] ++ [0x15, 0x16, 0x17] ++
    [0x1A, 0x1B, 0x1C, 0x1D, 0x1E, 0x1F] ++ [0x24, 0x25, 0x26, 0x27] ++ [0x2B, 0x2C, 0x2D, 0x2E, 0x2F] ++
    [0x36, 0x37, 0x38, 0x39] ++ [0x3E, 0x3F]

end Sys2Proof.Machine
end

