-- ==== Sys2Proof/Certificates/Slice0/Obligations.lean ====
section
/-! DEFINITION. The statements for the provers. -/

open Sys2Proof Sys2Proof.Machine

/-- R61: the complete operation table, row by row; every code not in it is reserved. -/
def Obligations.OperationTableDecodes : Prop :=
  (decodeOp 0x00#6 = .ok .zext64 ∧ decodeOp 0x01#6 = .ok .sext64 ∧ decodeOp 0x02#6 = .ok .sign ∧
    decodeOp 0x08#6 = .ok .mulw ∧ decodeOp 0x09#6 = .ok .mul ∧ decodeOp 0x10#6 = .ok .add ∧
    decodeOp 0x11#6 = .ok .sub ∧ decodeOp 0x12#6 = .ok .adds ∧ decodeOp 0x13#6 = .ok .subs ∧
    decodeOp 0x14#6 = .ok .sub64 ∧ decodeOp 0x18#6 = .ok .neg ∧ decodeOp 0x19#6 = .ok .abs ∧
    decodeOp 0x20#6 = .ok .and ∧ decodeOp 0x21#6 = .ok .or ∧ decodeOp 0x22#6 = .ok .xor ∧
    decodeOp 0x23#6 = .ok .not ∧ decodeOp 0x28#6 = .ok .shl ∧ decodeOp 0x29#6 = .ok .shr ∧
    decodeOp 0x2A#6 = .ok .sar ∧ decodeOp 0x30#6 = .ok .cmp ∧ decodeOp 0x31#6 = .ok .eq ∧
    decodeOp 0x32#6 = .ok .ltu ∧ decodeOp 0x33#6 = .ok .leu ∧ decodeOp 0x34#6 = .ok .gtu ∧
    decodeOp 0x35#6 = .ok .geu ∧ decodeOp 0x3A#6 = .ok .lts ∧ decodeOp 0x3B#6 = .ok .les ∧
    decodeOp 0x3C#6 = .ok .gts ∧ decodeOp 0x3D#6 = .ok .ges) ∧
    ∀ op : OpCode, decodeOp op = .error (.reserved op) ↔ op.toNat ∈ reservedCodes

/-- R65: one row at most matches, by all six bits; if none matches, the code is reserved. -/
def Obligations.EncodeInvertsDecode : Prop :=
  (∀ (op : OpCode) (i : Instr), decodeOp op = .ok i ↔ encode i = op) ∧
    ∀ op : OpCode, (∀ i, encode i ≠ op) → decodeOp op = .error (.reserved op)

/-- R35: a code of the table runs the rule of its operation. Nothing is fetched (R59): the code is the `op` port. -/
def Obligations.StepRunsDecodedOperation : Prop :=
  ∀ (s : State) (i : Instr), decodeOp s.op = .ok i → step s = exec i s

/-- The model's own way to present an instruction word (log entry 2): the `op` port takes bits 5 to 0 and the operands and the
last sampled outputs stay. -/
def Obligations.FetchWordRunsOperation : Prop :=
  ∀ (s : State) (i : Instr) (w : Nat), decodeTableWord 8 w = some i →
    step (s.withFetchWord 8 w) = exec i (s.withFetchWord 8 w) ∧ (s.withFetchWord 8 w).op = encode i ∧
      (s.withFetchWord 8 w).a = s.a ∧ (s.withFetchWord 8 w).b = s.b ∧
      (s.withFetchWord 8 w).outputs = s.outputs ∧ (s.withFetchWord 8 w).draws = s.draws

/-- R38 and R200: no input makes CORE hang or fail, and there is no exception; R33: no input is written. -/
def Obligations.StepAlwaysAnswersNext : Prop :=
  ∀ s : State, ∃ t, step s = .next t ∧ InputsHeld s t

/-- R201, with the list and the flags of R66: the 35 reserved codes are the only cause of `ill`; they drive `y = 0` and
`ovf = 0`, and nothing else is recorded. -/
def Obligations.ReservedCodesDriveIll : Prop :=
  ∀ s : State, ∃ t, step s = .next t ∧ (t.ill = true ↔ s.op.toNat ∈ reservedCodes) ∧
    (s.op.toNat ∈ reservedCodes → t.y = 0#128 ∧ t.ovf = false) ∧ FlagsContract s.a s.b t.flags ∧ InputsHeld s t

/-- R57: evaluating any number of times has the effect of evaluating once. -/
def Obligations.StepIsIdempotent : Prop :=
  ∀ s t : State, step s = .next t → step t = .next t

/-- R37: equal inputs give equal outputs, whatever was evaluated before and in whichever instance. -/
def Obligations.OutputsDependOnInputsAlone : Prop :=
  ∀ s s' : State, s.op = s'.op → s.a = s'.a → s.b = s'.b →
    ∃ t t', step s = .next t ∧ step s' = .next t' ∧ t.outputs = t'.outputs

/-- R35: the step drives the outputs of the evaluation function on the present inputs and changes nothing else. -/
def Obligations.StepIsTheEvaluationFunction : Prop :=
  ∀ s : State, step s = .next (s.drive (evaluate s.op s.a s.b))

/-- R35 with the rule of every operation: the outputs of a step meet the contract, which is written in exact integers and bits. -/
def Obligations.StepMeetsContract : Prop :=
  ∀ s : State, ∃ t, step s = .next t ∧ InputsHeld s t ∧ Contract s.op s.a s.b t.outputs

/-- R221 and R223: after a step, from any state at all, the outputs are those of the present inputs, so in particular every
step keeps this; and the states of which it holds are exactly those that a step leaves as they are (R57). -/
def Obligations.StepKeepsSettled : Prop :=
  (∀ s t : State, step s = .next t → Settled t) ∧ ∀ s : State, Settled s ↔ step s = .next s

/-- R221: after power-up the outputs are those of the present inputs. The inputs' zeros are the model's choice (log entry 1). -/
def Obligations.ResetIsSettled : Prop :=
  Settled State.reset

/-- R38: every output bit is defined for every input. -/
def Obligations.ContractFixesOutputs : Prop :=
  ∀ (op : OpCode) (a b : Word) (o o' : Outputs), Contract op a b o → Contract op a b o' → o = o'

/-- R224: an early sample shows unspecified values; the evaluation itself does not depend on it. The counter is the model's
own (log entry 3). -/
def Obligations.EarlySampleDoesNotDisturb : Prop :=
  ∀ s : State, ∃ t t', step s = .next t ∧ step (sampleEarly s) = .next t' ∧ t'.outputs = t.outputs ∧
    (sampleEarly s).op = s.op ∧ (sampleEarly s).a = s.a ∧ (sampleEarly s).b = s.b ∧ t'.draws = s.draws + 1

/-- R224 and R225: held for at least `T_PD`, the host samples the evaluation; before that, unspecified values on every output.
The form of an early sample, free values of Config at the counter `draws`, which advances by one, is the model's choice (log
entry 3). -/
def Obligations.SamplingFollowsPropagationDelay : Prop :=
  ∀ (tPD held : Nat) (s : State),
    (tPD ≤ held → ∃ t, sample tPD held s = .next t ∧ Settled t ∧ InputsHeld s t) ∧
      (held < tPD → ∃ t, sample tPD held s = .next t ∧ t.y = Config.earlyY s.draws ∧
        t.ovf = Config.earlyOvf s.draws ∧ t.flags = Config.earlyFlags s.draws ∧ t.ill = Config.earlyIll s.draws ∧
        t.op = s.op ∧ t.a = s.a ∧ t.b = s.b ∧ t.draws = s.draws + 1)

/-- R160, literally: `d = trunc_128(u(a) - u(b))`, Z, N, C, V and their places, for every op; C is the borrow of SUB and V
the signed overflow of SUBS. -/
def Obligations.FlagsUnderEveryCode : Prop :=
  ∀ s : State, ∃ t, step s = .next t ∧
    t.flags.getLsbD 0 = decide (BitVec.ofInt 128 ((s.a.toNat : Int) - s.b.toNat) = 0#128) ∧
    t.flags.getLsbD 1 = (BitVec.ofInt 128 ((s.a.toNat : Int) - s.b.toNat)).getLsbD 127 ∧
    t.flags.getLsbD 2 = decide (s.a.toNat < s.b.toNat) ∧
    t.flags.getLsbD 3 = (decide (s.a.getLsbD 127 ≠ s.b.getLsbD 127) &&
      decide ((BitVec.ofInt 128 ((s.a.toNat : Int) - s.b.toNat)).getLsbD 127 ≠ s.a.getLsbD 127)) ∧
    t.flags.getLsbD 2 = (evaluate 0x11#6 s.a s.b).ovf ∧ t.flags.getLsbD 3 = (evaluate 0x13#6 s.a s.b).ovf

/-- R80. -/
def Obligations.Zext64WidensUnsigned : Prop :=
  encode .zext64 = 0x00#6 ∧ ∀ s : State,
    CompletesWith .zext64 s (fun y ovf =>
      y.toNat = s.a.toNat % 2 ^ 64 ∧ y.extractLsb' 0 64 = s.a.extractLsb' 0 64 ∧ y.extractLsb' 64 64 = 0#64 ∧ ovf = false)

/-- R81. -/
def Obligations.Sext64WidensSigned : Prop :=
  encode .sext64 = 0x01#6 ∧ ∀ s : State,
    CompletesWith .sext64 s (fun y ovf =>
      y.toInt = (s.a.extractLsb' 0 64).toInt ∧ y.extractLsb' 0 64 = s.a.extractLsb' 0 64 ∧
        y.extractLsb' 64 64 = (if s.a.getLsbD 63 then 0xFFFFFFFFFFFFFFFF#64 else 0#64) ∧ ovf = false)

/-- R82. -/
def Obligations.SignDetectsNegative : Prop :=
  encode .sign = 0x02#6 ∧ ∀ s : State,
    CompletesWith .sign s (fun y ovf =>
      y.toNat = (s.a.getLsbD 127).toNat ∧ BitResult y (s.a.toInt < 0) ∧ ovf = false)

/-- R90. -/
def Obligations.MulwIsExactProduct : Prop :=
  encode .mulw = 0x08#6 ∧ ∀ s : State,
    CompletesWith .mulw s (fun y ovf =>
      y.toNat = (s.a.toNat % 2 ^ 64) * (s.b.toNat % 2 ^ 64) ∧ ovf = false)

/-- R93. -/
def Obligations.MulIsProductWithOverflow : Prop :=
  encode .mul = 0x09#6 ∧ ∀ s : State,
    CompletesWith .mul s (fun y ovf =>
      y.toNat = s.a.toNat * s.b.toNat % 2 ^ 128 ∧ (ovf = true ↔ 2 ^ 128 ≤ s.a.toNat * s.b.toNat))

/-- R100. -/
def Obligations.AddIsSumWithCarry : Prop :=
  encode .add = 0x10#6 ∧ ∀ s : State,
    CompletesWith .add s (fun y ovf =>
      y.toNat = (s.a.toNat + s.b.toNat) % 2 ^ 128 ∧ (ovf = true ↔ 2 ^ 128 ≤ s.a.toNat + s.b.toNat))

/-- R102. -/
def Obligations.SubIsDifferenceWithBorrow : Prop :=
  encode .sub = 0x11#6 ∧ ∀ s : State,
    CompletesWith .sub s (fun y ovf =>
      (y.toNat : Int) = ((s.a.toNat : Int) - s.b.toNat) % 2 ^ 128 ∧ (ovf = true ↔ s.a.toNat < s.b.toNat)) ∧
    ∃ t, exec .sub s = .next t ∧ t.flags.getLsbD 2 = t.ovf

/-- R104, its pseudocode; the bit form that the spec derives is SignedOverflowBitForms. -/
def Obligations.AddsIsSumWithSignedOverflow : Prop :=
  encode .adds = 0x12#6 ∧ ∀ s : State,
    CompletesWith .adds s (fun y ovf =>
      y.toNat = (s.a.toNat + s.b.toNat) % 2 ^ 128 ∧ y.toInt = Int.bmod (s.a.toInt + s.b.toInt) (2 ^ 128) ∧
        (ovf = true ↔ ¬(-2 ^ 127 ≤ s.a.toInt + s.b.toInt ∧ s.a.toInt + s.b.toInt ≤ 2 ^ 127 - 1)))

/-- R105, its pseudocode; `ovf = flags[3]`, which the spec derives, is in SignedOverflowBitForms. -/
def Obligations.SubsIsDifferenceWithSignedOverflow : Prop :=
  encode .subs = 0x13#6 ∧ ∀ s : State,
    CompletesWith .subs s (fun y ovf =>
      (y.toNat : Int) = ((s.a.toNat : Int) - s.b.toNat) % 2 ^ 128 ∧ y.toInt = Int.bmod (s.a.toInt - s.b.toInt) (2 ^ 128) ∧
        (ovf = true ↔ ¬(-2 ^ 127 ≤ s.a.toInt - s.b.toInt ∧ s.a.toInt - s.b.toInt ≤ 2 ^ 127 - 1)))

/-- R106. -/
def Obligations.Sub64SubtractsLowLimb : Prop :=
  encode .sub64 = 0x14#6 ∧ ∀ s : State,
    CompletesWith .sub64 s (fun y ovf =>
      (y.toNat : Int) = ((s.a.toNat : Int) - (s.b.toNat % 2 ^ 64 : Nat)) % 2 ^ 128 ∧
        (ovf = true ↔ s.a.toNat < s.b.toNat % 2 ^ 64) ∧
        y = (evaluate 0x11#6 s.a ((s.b.extractLsb' 0 64).setWidth 128)).y ∧
        ovf = (evaluate 0x11#6 s.a ((s.b.extractLsb' 0 64).setWidth 128)).ovf)

/-- R120. -/
def Obligations.NegIsTwosComplement : Prop :=
  encode .neg = 0x18#6 ∧ ∀ s : State,
    CompletesWith .neg s (fun y ovf =>
      y.toNat = ((~~~s.a).toNat + 1) % 2 ^ 128 ∧ y.toNat = (2 ^ 128 - s.a.toNat) % 2 ^ 128 ∧
        (y.toNat : Int) = -s.a.toInt % 2 ^ 128 ∧ ovf = false)

/-- R122. -/
def Obligations.AbsIsMagnitude : Prop :=
  encode .abs = 0x19#6 ∧ ∀ s : State,
    CompletesWith .abs s (fun y ovf =>
      y.toNat = s.a.toInt.natAbs ∧ (s.a.getLsbD 127 = true → y.toNat = ((~~~s.a).toNat + 1) % 2 ^ 128) ∧
        (s.a.getLsbD 127 = false → y = s.a) ∧ ovf = false)

/-- R130 to R133: each output bit depends on the input bits at its own place. -/
def Obligations.LogicIsBitwise : Prop :=
  (encode .and = 0x20#6 ∧ encode .or = 0x21#6 ∧ encode .xor = 0x22#6 ∧ encode .not = 0x23#6) ∧ ∀ s : State,
    CompletesWith .and s (fun y ovf => (∀ k, k < 128 → y.getLsbD k = (s.a.getLsbD k && s.b.getLsbD k)) ∧ ovf = false) ∧
    CompletesWith .or s (fun y ovf => (∀ k, k < 128 → y.getLsbD k = (s.a.getLsbD k || s.b.getLsbD k)) ∧ ovf = false) ∧
    CompletesWith .xor s (fun y ovf => (∀ k, k < 128 → y.getLsbD k = (s.a.getLsbD k != s.b.getLsbD k)) ∧ ovf = false) ∧
    CompletesWith .not s (fun y ovf => (∀ k, k < 128 → y.getLsbD k = !s.a.getLsbD k) ∧ ovf = false)

/-- R144. -/
def Obligations.ShlShiftsLeft : Prop :=
  encode .shl = 0x28#6 ∧ ∀ s : State,
    CompletesWith .shl s (fun y ovf =>
      (128 ≤ s.b.toNat → y.toNat = 0) ∧ (s.b.toNat < 128 → y.toNat = s.a.toNat * 2 ^ s.b.toNat % 2 ^ 128) ∧
        (∀ k, k < 128 → y.getLsbD k = (decide (s.b.toNat ≤ k) && s.a.getLsbD (k - s.b.toNat))) ∧ ovf = false)

/-- R146. -/
def Obligations.ShrShiftsRight : Prop :=
  encode .shr = 0x29#6 ∧ ∀ s : State,
    CompletesWith .shr s (fun y ovf =>
      (128 ≤ s.b.toNat → y.toNat = 0) ∧ (s.b.toNat < 128 → y.toNat = s.a.toNat / 2 ^ s.b.toNat) ∧
        (∀ k, k < 128 → y.getLsbD k = s.a.getLsbD (k + s.b.toNat)) ∧ ovf = false)

/-- R148. -/
def Obligations.SarShiftsRightWithSign : Prop :=
  encode .sar = 0x2A#6 ∧ ∀ s : State,
    CompletesWith .sar s (fun y ovf =>
      (128 ≤ s.b.toNat → y = if s.a.getLsbD 127 then BitVec.allOnes 128 else 0#128) ∧
        (s.b.toNat < 128 → y.toInt = s.a.toInt / (2 ^ s.b.toNat : Nat) ∧
          y = s.a >>> s.b.toNat ||| (if s.a.getLsbD 127 then ~~~(BitVec.allOnes 128 >>> s.b.toNat) else 0#128)) ∧
        (∀ k, k < 128 → y.getLsbD k = if k + s.b.toNat < 128 then s.a.getLsbD (k + s.b.toNat) else s.a.getLsbD 127) ∧
        ovf = false)

/-- R143: an amount of 128 or more is legal; SHL and SHR give ZERO, SAR copies of bit 127, and `ill` stays 0. -/
def Obligations.AmountsPastWidthEmptyTheValue : Prop :=
  ∀ s : State, 128 ≤ s.b.toNat →
    (∃ t, exec .shl s = .next t ∧ t.y = 0x00000000000000000000000000000000#128 ∧ t.ill = false) ∧
    (∃ t, exec .shr s = .next t ∧ t.y = 0x00000000000000000000000000000000#128 ∧ t.ill = false) ∧
    (∃ t, exec .sar s = .next t ∧ t.ill = false ∧
      (s.a.getLsbD 127 = true → t.y = 0xFFFFFFFFFFFFFFFFFFFFFFFFFFFFFFFF#128) ∧
      (s.a.getLsbD 127 = false → t.y = 0x00000000000000000000000000000000#128))

/-- R163: `y[3:0]` is the flags port and `y[127:4]` is 0. -/
def Obligations.CmpGivesFlagsAsValue : Prop :=
  encode .cmp = 0x30#6 ∧ ∀ s : State, CompletesWith .cmp s (fun y ovf => y.toNat < 16 ∧ ovf = false) ∧
    ∃ t, exec .cmp s = .next t ∧ t.y.extractLsb' 0 4 = t.flags ∧ t.y.extractLsb' 4 124 = 0#124

/-- R164 to R168: EQ, LTU, LEU, GTU and GEU are the comparisons of the unsigned values. -/
def Obligations.EqualityAndUnsignedOrder : Prop :=
  (encode .eq = 0x31#6 ∧ encode .ltu = 0x32#6 ∧ encode .leu = 0x33#6 ∧ encode .gtu = 0x34#6 ∧ encode .geu = 0x35#6) ∧
    ∀ s : State,
    CompletesWith .eq s (fun y ovf => BitResult y (s.a = s.b) ∧ ovf = false) ∧
    CompletesWith .ltu s (fun y ovf => BitResult y (s.a.toNat < s.b.toNat) ∧ ovf = false) ∧
    CompletesWith .leu s (fun y ovf => BitResult y (s.a.toNat ≤ s.b.toNat) ∧ ovf = false) ∧
    CompletesWith .gtu s (fun y ovf => BitResult y (s.a.toNat > s.b.toNat) ∧ ovf = false) ∧
    CompletesWith .geu s (fun y ovf => BitResult y (s.a.toNat ≥ s.b.toNat) ∧ ovf = false)

/-- R169 to R172: LTS, LES, GTS and GES are the comparisons of the signed values. -/
def Obligations.SignedOrder : Prop :=
  (encode .lts = 0x3A#6 ∧ encode .les = 0x3B#6 ∧ encode .gts = 0x3C#6 ∧ encode .ges = 0x3D#6) ∧
    ∀ s : State,
    CompletesWith .lts s (fun y ovf => BitResult y (s.a.toInt < s.b.toInt) ∧ ovf = false) ∧
    CompletesWith .les s (fun y ovf => BitResult y (s.a.toInt ≤ s.b.toInt) ∧ ovf = false) ∧
    CompletesWith .gts s (fun y ovf => BitResult y (s.a.toInt > s.b.toInt) ∧ ovf = false) ∧
    CompletesWith .ges s (fun y ovf => BitResult y (s.a.toInt ≥ s.b.toInt) ∧ ovf = false)

/-- R36: the 23 operations without an overflow indication drive `ovf = 0`. -/
def Obligations.OvfIsZeroForUncheckedOperations : Prop :=
  ∀ (i : Instr) (s : State),
    i ∈ ([.zext64, .sext64, .sign, .mulw, .neg, .abs, .and, .or, .xor, .not,
        .shl, .shr, .sar, .cmp, .eq, .ltu, .leu, .gtu, .geu, .lts,
        .les, .gts, .ges] : List Instr) →
      ∃ t, exec i s = .next t ∧ t.ovf = false

/-- R63: a bit marked "ignored" has no effect on `y` or `ovf`. -/
def Obligations.IgnoredOperandBitsHaveNoEffect : Prop :=
  ∀ a a' b b' : Word,
    (a.extractLsb' 0 64 = a'.extractLsb' 0 64 → SameResult 0x00#6 a b a' b' ∧ SameResult 0x01#6 a b a' b') ∧
    (a.getLsbD 127 = a'.getLsbD 127 → SameResult 0x02#6 a b a' b') ∧
    (a.extractLsb' 0 64 = a'.extractLsb' 0 64 → b.extractLsb' 0 64 = b'.extractLsb' 0 64 →
      SameResult 0x08#6 a b a' b') ∧
    (b.extractLsb' 0 64 = b'.extractLsb' 0 64 → SameResult 0x14#6 a b a b') ∧
    SameResult 0x18#6 a b a b' ∧ SameResult 0x19#6 a b a b' ∧ SameResult 0x23#6 a b a b'

/-- R91: the product made of four 32-bit partial products, with the bounds the rule gives for each part. -/
def Obligations.MulwFromPartialProducts : Prop :=
  ∀ s : State,
    exec .mulw s = .next (driveResult (mulwLimbs (s.a.extractLsb' 0 64) (s.b.extractLsb' 0 64)) false s) ∧
    ∀ x z : Limb, p00 x z < 2 ^ 64 ∧ p10 x z < 2 ^ 64 ∧ p01 x z < 2 ^ 64 ∧ p11 x z < 2 ^ 64 ∧
      midSum x z < 3 * 2 ^ 32 ∧ highSum x z < 2 ^ 64 ∧ (mulwLimbs x z).toNat = x.toNat * z.toNat

/-- R94: the source's limb algorithm for the checked multiply. -/
def Obligations.MulFromLimbs : Prop :=
  ∀ s : State, exec .mul s = .next (driveResult (mulLimbs s.a s.b).1 (mulLimbs s.a s.b).2 s)

/-- R101: two 64-bit digits with a carry between them. -/
def Obligations.AddFromLimbs : Prop :=
  ∀ s : State, exec .add s = .next (driveResult (addLimbs s.a s.b).1 (addLimbs s.a s.b).2 s)

/-- R103: two 64-bit digits with a borrow between them. -/
def Obligations.SubFromLimbs : Prop :=
  ∀ s : State, exec .sub s = .next (driveResult (subLimbs s.a s.b).1 (subLimbs s.a s.b).2 s)

/-- R107: the high limb subtracts only the borrow. -/
def Obligations.Sub64FromLimbs : Prop :=
  ∀ s : State, exec .sub64 s = .next (driveResult (sub64Limbs s.a s.b).1 (sub64Limbs s.a s.b).2 s)

/-- R145: the limb form, for amounts up to 127, with a limb shift by 64 or more giving 0 (R13). -/
def Obligations.ShlFromLimbs : Prop :=
  ∀ s : State, s.b.toNat ≤ 127 → exec .shl s = .next (driveResult (shlLimbs s.a s.b.toNat) false s)

/-- R147: the limb form, for amounts up to 127, with a limb shift by 64 or more giving 0 (R13). -/
def Obligations.ShrFromLimbs : Prop :=
  ∀ s : State, s.b.toNat ≤ 127 → exec .shr s = .next (driveResult (shrLimbs s.a s.b.toNat) false s)

/-- R149: the limb form, for amounts up to 127, with a limb shift by 64 or more giving 0 (R13). -/
def Obligations.SarFromLimbs : Prop :=
  ∀ s : State, s.b.toNat ≤ 127 → exec .sar s = .next (driveResult (sarLimbs s.a s.b.toNat) false s)

/-- R162: the predicates from the flags that the port shows, and the mirror forms from the swapped operands. -/
def Obligations.PredicatesComeFromFlags : Prop :=
  ∀ a b : Word,
    (evaluate 0x31#6 a b).y = zextBit ((evaluate 0x31#6 a b).flags.getLsbD 0) ∧
    (evaluate 0x32#6 a b).y = zextBit ((evaluate 0x32#6 a b).flags.getLsbD 2) ∧
    (evaluate 0x33#6 a b).y = zextBit ((evaluate 0x33#6 a b).flags.getLsbD 2 || (evaluate 0x33#6 a b).flags.getLsbD 0) ∧
    (evaluate 0x3A#6 a b).y = zextBit ((evaluate 0x3A#6 a b).flags.getLsbD 1 ^^ (evaluate 0x3A#6 a b).flags.getLsbD 3) ∧
    (evaluate 0x3B#6 a b).y = zextBit ((evaluate 0x3B#6 a b).flags.getLsbD 0 ||
      ((evaluate 0x3B#6 a b).flags.getLsbD 1 ^^ (evaluate 0x3B#6 a b).flags.getLsbD 3)) ∧
    (evaluate 0x34#6 a b).y = (evaluate 0x32#6 b a).y ∧ (evaluate 0x35#6 a b).y = (evaluate 0x33#6 b a).y ∧
    (evaluate 0x3C#6 a b).y = (evaluate 0x3A#6 b a).y ∧ (evaluate 0x3D#6 a b).y = (evaluate 0x3B#6 b a).y

/-- R174: the mirror forms from the flags of `a - b` alone. -/
def Obligations.MirrorFormsFromOneFlagSet : Prop :=
  ∀ a b : Word,
    (evaluate 0x34#6 a b).y = zextBit (!((evaluate 0x34#6 a b).flags.getLsbD 2 || (evaluate 0x34#6 a b).flags.getLsbD 0)) ∧
    (evaluate 0x35#6 a b).y = zextBit (!(evaluate 0x35#6 a b).flags.getLsbD 2) ∧
    (evaluate 0x3C#6 a b).y = zextBit (!((evaluate 0x3C#6 a b).flags.getLsbD 0 ||
      ((evaluate 0x3C#6 a b).flags.getLsbD 1 ^^ (evaluate 0x3C#6 a b).flags.getLsbD 3))) ∧
    (evaluate 0x3D#6 a b).y = zextBit (!((evaluate 0x3D#6 a b).flags.getLsbD 1 ^^ (evaluate 0x3D#6 a b).flags.getLsbD 3))

/-- R104 and R105, what the spec derives there: signed overflow from the sign bits, and SUBS' `ovf` is the V flag. -/
def Obligations.SignedOverflowBitForms : Prop :=
  ∀ s : State,
    (∃ t, exec .adds s = .next t ∧
      t.ovf = (decide (s.a.getLsbD 127 = s.b.getLsbD 127) && decide (t.y.getLsbD 127 ≠ s.a.getLsbD 127))) ∧
    ∃ t, exec .subs s = .next t ∧ t.ovf = t.flags.getLsbD 3 ∧
      t.ovf = (decide (s.a.getLsbD 127 ≠ s.b.getLsbD 127) && decide (t.y.getLsbD 127 ≠ s.a.getLsbD 127))

/-- R95: the low 128 bits do not depend on the signedness of the operands. -/
def Obligations.MulReadsSigned : Prop :=
  ∀ s : State, ∃ t, exec .mul s = .next t ∧ t.y.toInt = Int.bmod (s.a.toInt * s.b.toInt) (2 ^ 128)

/-- R97: `u(b)` chained ADDs of `a` to ZERO; and MULW where both operands fit in 64 bits. -/
def Obligations.MulIsRepeatedAddition : Prop :=
  (∀ a b : Word, (evaluate 0x09#6 a b).y = (fun acc => (evaluate 0x10#6 acc a).y)^[b.toNat] 0#128) ∧
    ∀ a b : Word, a.toNat < 2 ^ 64 → b.toNat < 2 ^ 64 →
      (evaluate 0x09#6 a b).y = (evaluate 0x08#6 a b).y ∧ (evaluate 0x09#6 a b).ovf = false

/-- R121: `NEG (NEG a) = a`. -/
def Obligations.NegIsInvolution : Prop :=
  ∀ a b b' : Word, (evaluate 0x18#6 (evaluate 0x18#6 a b).y b').y = a

/-- R108 and R109: ADD and ADDS give equal `y`, and so do SUB and SUBS; ADD commutes; SUB wraps exactly when adding back does. -/
def Obligations.AddAndSubAgree : Prop :=
  ∀ a b : Word,
    (evaluate 0x10#6 a b).y = (evaluate 0x12#6 a b).y ∧ (evaluate 0x11#6 a b).y = (evaluate 0x13#6 a b).y ∧
    (evaluate 0x10#6 a b).y = (evaluate 0x10#6 b a).y ∧ (evaluate 0x10#6 a b).ovf = (evaluate 0x10#6 b a).ovf ∧
    (evaluate 0x11#6 a b).ovf = (evaluate 0x10#6 (evaluate 0x11#6 a b).y b).ovf ∧
    (evaluate 0x10#6 (evaluate 0x11#6 a b).y b).y = a

/-- R150: shift by 0, by 64, left and back, and SAR of a non-negative value. -/
def Obligations.ShiftLaws : Prop :=
  (∀ a : Word, (evaluate 0x28#6 a 0#128).y = a ∧ (evaluate 0x29#6 a 0#128).y = a ∧ (evaluate 0x2A#6 a 0#128).y = a) ∧
    (∀ a : Word, a.extractLsb' 64 64 = 0#64 → (evaluate 0x28#6 a 64#128).y.extractLsb' 64 64 = a.extractLsb' 0 64 ∧
      (evaluate 0x28#6 a 64#128).y.extractLsb' 0 64 = 0#64) ∧
    (∀ a n : Word, n.toNat ≤ 127 → ∀ k, k < 128 →
      (evaluate 0x29#6 (evaluate 0x28#6 a n).y n).y.getLsbD k = (decide (k + n.toNat < 128) && a.getLsbD k)) ∧
    ∀ a n : Word, 0 ≤ a.toInt → (evaluate 0x2A#6 a n).y = (evaluate 0x29#6 a n).y

/-- R173: exactly one of less, equal, greater; and less-or-equal is less or equal. -/
def Obligations.ComparisonIsTotalOrder : Prop :=
  ∀ a b : Word,
    (evaluate 0x32#6 a b).y.toNat + (evaluate 0x31#6 a b).y.toNat + (evaluate 0x32#6 b a).y.toNat = 1 ∧
    (evaluate 0x3A#6 a b).y.toNat + (evaluate 0x31#6 a b).y.toNat + (evaluate 0x3A#6 b a).y.toNat = 1 ∧
    (evaluate 0x33#6 a b).y = (evaluate 0x32#6 a b).y ||| (evaluate 0x31#6 a b).y ∧
    (evaluate 0x3B#6 a b).y = (evaluate 0x3A#6 a b).y ||| (evaluate 0x31#6 a b).y

/-- R54: the same limb order for the store and the load gives the value back; the other order swaps the limbs. The form of
the image, a list of two limbs without the bytes of a limb, is the model's choice (log entry 10). -/
def Obligations.HostImageKeepsValue : Prop :=
  ∀ v : Word, (∀ o : LimbOrder, loadLimbs o (storeLimbs o v) = some v) ∧
    (∀ o o' : LimbOrder, o ≠ o' →
      loadLimbs o' (storeLimbs o v) = some (v.extractLsb' 0 64 ++ v.extractLsb' 64 64 : BitVec (64 + 64)))

/-- R202: a step of a host sequence whose evaluation gives `ill = 1` is a fault; CORE alone drives its outputs. -/
def Obligations.IllegalCodeFaultsTheHost : Prop :=
  ∀ (prog : List SeqLine) (h : SeqState) (labels : List Nat) (dest : Nat) (op : OpCode) (x z : SeqOperand) (a b : Word),
    h.halted = false → prog[h.pos]? = some ⟨labels, .raw dest op x z⟩ →
    operandValue h.vars x = .ok a → operandValue h.vars z = .ok b →
      (op.toNat ∈ reservedCodes → seqStep prog h = .fault (.illegalOp op) ∧
        ∃ t, step (h.core.present op a b) = .next t ∧ t.ill = true ∧ t.y = 0#128 ∧ t.ovf = false) ∧
      (op.toNat ∉ reservedCodes → ∃ h', seqStep prog h = .next h' ∧ getVar dest h'.vars = some (evaluate op a b))

/-- R69 and R71: a step of a host sequence presents the triple, and `dest` receives the four outputs. -/
def Obligations.HostStepAssignsOutputs : Prop :=
  ∀ (prog : List SeqLine) (h : SeqState) (labels : List Nat) (dest : Nat) (i : Instr) (x : SeqOperand)
      (z : Option SeqOperand) (a b : Word),
    h.halted = false → prog[h.pos]? = some ⟨labels, .eval dest i x z⟩ → operandCountFits i z = true →
    operandValue h.vars x = .ok a → secondValue h.vars z = .ok b →
      ∃ h', seqStep prog h = .next h' ∧ h'.pos = h.pos + 1 ∧ h'.halted = false ∧
        h'.core.op = encode i ∧ h'.core.a = a ∧ h'.core.b = b ∧
        h'.core.outputs = evaluate (encode i) a b ∧ getVar dest h'.vars = some (evaluate (encode i) a b) ∧
        (i.arity = 1 → b = 0#128) ∧ ∀ v, v ≠ dest → getVar v h'.vars = getVar v h.vars

/-- R69: the variables keep their canonical form and the unit stays settled along a host sequence. The form is the model's
own (log entry 5), and so are the inputs of the unit at the start (log entry 1). -/
def Obligations.HostSequenceKeepsInvariant : Prop :=
  (∀ given : List (Nat × Word), SeqInv (seqStart given)) ∧
    ∀ (prog : List SeqLine) (h h' : SeqState), SeqInv h → seqStep prog h = .next h' → SeqInv h'

/-- R70: what each expansion leaves in its destination. -/
def Obligations.PseudoOperationsGiveTheirResults : Prop :=
  ∀ (h : SeqState) (dest : Nat) (x z : SeqOperand) (a b : Word),
    operandValue h.vars x = .ok a → operandValue h.vars z = .ok b →
      PseudoGives dest (.addw x z) h (fun y => y.toNat = (a.toNat + b.toNat) % 2 ^ 128) ∧
      PseudoGives dest (.subw x z) h (fun y => (y.toNat : Int) = ((a.toNat : Int) - b.toNat) % 2 ^ 128) ∧
      PseudoGives dest (.mull x z) h (fun y => y.toNat = a.toNat * b.toNat % 2 ^ 128) ∧
      PseudoGives dest (.mov x) h (fun y => y = a) ∧ PseudoGives dest .clr h (fun y => y = 0#128) ∧
      PseudoGives dest (.trunc64 x) h (fun y => y.extractLsb' 0 64 = a.extractLsb' 0 64) ∧
      PseudoGives dest (.ne x z) h (fun y => BitResult y (a ≠ b)) ∧
      PseudoGives dest (.lsl x z) h (fun y => y = (evaluate 0x28#6 a b).y) ∧
      PseudoGives dest (.lsr x z) h (fun y => y = (evaluate 0x29#6 a b).y) ∧
      PseudoGives dest (.asr x z) h (fun y => y = (evaluate 0x2A#6 a b).y)
end

