-- ==== Sys2Proof/Laws/Operands.lean ====
section
/-! SUPPORT. The readings, limbs and narrowings of Machine/Operands.lean as numbers and as bit-vector operations. -/

namespace Sys2Proof.Machine

theorem twoTo_eq (n : Nat) : twoTo n = 2 ^ n := rfl

theorem uval_lt (v : Word) : uval v < 2 ^ 128 := v.isLt

theorem signBit_eq_msb (v : Word) : signBit v = v.msb := by
  simp [signBit, BitVec.msb_eq_getLsbD_last]

theorem signBit_iff (v : Word) : signBit v = true ↔ 2 ^ 127 ≤ v.toNat := by
  rw [signBit_eq_msb, BitVec.msb_eq_decide]
  simp

/-- `s(v)` is the two's-complement value (R11). -/
theorem sval_eq_toInt (v : Word) : sval v = v.toInt := by
  have h := signBit_iff v
  have hv := v.isLt
  rw [BitVec.toInt_eq_toNat_cond]
  unfold sval uval twoTo
  cases hs : signBit v <;> simp [hs] at h ⊢ <;> omega

theorem sval_bounds (v : Word) : -2 ^ 127 ≤ sval v ∧ sval v ≤ 2 ^ 127 - 1 := by
  have h := signBit_iff v
  have hv := v.isLt
  unfold sval uval twoTo
  cases hs : signBit v <;> simp [hs] at h ⊢ <;> omega

theorem trunc128_toNat (x : Int) : ((trunc128 x).toNat : Int) = x % 2 ^ 128 := by
  simp [trunc128, BitVec.toNat_ofInt]
  omega

theorem trunc64_toNat (x : Int) : ((trunc64 x).toNat : Int) = x % 2 ^ 64 := by
  simp [trunc64, BitVec.toNat_ofInt]
  omega

theorem trunc128_natCast (n : Nat) : trunc128 (n : Int) = BitVec.ofNat 128 n := by
  simp [trunc128]

theorem trunc64_natCast (n : Nat) : trunc64 (n : Int) = BitVec.ofNat 64 n := by
  simp [trunc64]

theorem trunc128_uval (v : Word) : trunc128 (uval v) = v := by
  rw [trunc128_natCast]
  exact BitVec.eq_of_toNat_eq (by simp [uval])

theorem trunc128_add (a b : Word) : trunc128 ((uval a : Int) + (uval b : Int)) = a + b := by
  apply BitVec.eq_of_toNat_eq
  have h := trunc128_toNat ((uval a : Int) + (uval b : Int))
  rw [BitVec.toNat_add]
  unfold uval at h ⊢
  omega

theorem trunc128_sub (a b : Word) : trunc128 ((uval a : Int) - (uval b : Int)) = a - b := by
  apply BitVec.eq_of_toNat_eq
  have h := trunc128_toNat ((uval a : Int) - (uval b : Int))
  rw [BitVec.toNat_sub]
  unfold uval at h ⊢
  omega

theorem trunc128_mul (a b : Word) : trunc128 ((uval a : Int) * (uval b : Int)) = a * b := by
  rw [← Int.natCast_mul, trunc128_natCast]
  exact BitVec.eq_of_toNat_eq (by simp [uval])

theorem trunc128_neg (a : Word) : trunc128 ((uval (~~~a) : Int) + 1) = -a := by
  apply BitVec.eq_of_toNat_eq
  have h := trunc128_toNat ((uval (~~~a) : Int) + 1)
  have ha := a.isLt
  rw [BitVec.toNat_neg]
  simp only [uval, BitVec.toNat_not] at h ⊢
  omega

theorem lo_toNat (v : Word) : (lo v).toNat = v.toNat % 2 ^ 64 := by
  simp [lo, BitVec.extractLsb'_toNat]

theorem hi_toNat (v : Word) : (hi v).toNat = v.toNat / 2 ^ 64 := by
  have := v.isLt
  simp only [hi, BitVec.extractLsb'_toNat, Nat.shiftRight_eq_div_pow]
  omega

theorem loHalf_toNat (x : Limb) : (loHalf x).toNat = x.toNat % 2 ^ 32 := by
  simp [loHalf, BitVec.extractLsb'_toNat]

theorem hiHalf_toNat (x : Limb) : (hiHalf x).toNat = x.toNat / 2 ^ 32 := by
  have := x.isLt
  simp only [hiHalf, BitVec.extractLsb'_toNat, Nat.shiftRight_eq_div_pow]
  omega

theorem ofLimbs_toNat (h l : Limb) : (ofLimbs h l).toNat = h.toNat * 2 ^ 64 + l.toNat := by
  have := l.isLt
  rw [ofLimbs, BitVec.toNat_append, Nat.shiftLeft_eq, Nat.mul_comm, ← Nat.two_pow_add_eq_or_of_lt this]

theorem ofHalves_toNat (h l : Half) : (ofHalves h l).toNat = h.toNat * 2 ^ 32 + l.toNat := by
  have := l.isLt
  rw [ofHalves, BitVec.toNat_append, Nat.shiftLeft_eq, Nat.mul_comm, ← Nat.two_pow_add_eq_or_of_lt this]

/-- `v = v.hi·2^64 + v.lo` (R10). -/
theorem word_toNat_limbs (v : Word) : v.toNat = (hi v).toNat * 2 ^ 64 + (lo v).toNat := by
  rw [hi_toNat, lo_toNat]
  omega

@[simp] theorem ofLimbs_hi_lo (v : Word) : ofLimbs (hi v) (lo v) = v := by
  apply BitVec.eq_of_toNat_eq
  rw [ofLimbs_toNat, ← word_toNat_limbs]

@[simp] theorem lo_ofLimbs (h l : Limb) : lo (ofLimbs h l) = l := by
  apply BitVec.eq_of_toNat_eq
  have := l.isLt
  rw [lo_toNat, ofLimbs_toNat]
  omega

@[simp] theorem hi_ofLimbs (h l : Limb) : hi (ofLimbs h l) = h := by
  apply BitVec.eq_of_toNat_eq
  have := l.isLt
  rw [hi_toNat, ofLimbs_toNat]
  omega

/-- A word is zero-extended from its low limb when the high limb is zero. -/
theorem zextLimb_toNat (x : Limb) : (zextLimb x).toNat = x.toNat := by
  have := x.isLt
  simp only [zextLimb, BitVec.toNat_setWidth]
  omega

theorem sextLimb_toInt (x : Limb) : (sextLimb x).toInt = x.toInt := by
  simp [sextLimb, BitVec.toInt_signExtend_of_le]

theorem zextBit_toNat (p : Bool) : (zextBit p).toNat = p.toNat := by
  cases p <;> rfl

theorem zextFlags_toNat (f : FlagBits) : (zextFlags f).toNat = f.toNat := by
  have := f.isLt
  simp only [zextFlags, BitVec.toNat_setWidth]
  omega

theorem signedRange_iff (x : Int) : signedRange x = true ↔ -2 ^ 127 ≤ x ∧ x ≤ 2 ^ 127 - 1 := by
  simp [signedRange]

end Sys2Proof.Machine
end

