-- ==== Sys2Proof/Laws/Flags.lean ====
section
/-! SUPPORT. What the flag generator's four bits say (R160), and that the flag formulas of R162 are exact comparisons. -/

namespace Sys2Proof.Machine

theorem difference_eq (a b : Word) : difference a b = a - b := trunc128_sub a b

@[simp] theorem zOf_packFlags (v c n z : Bool) : zOf (packFlags v c n z) = z := by
  cases v <;> cases c <;> cases n <;> cases z <;> rfl

@[simp] theorem nOf_packFlags (v c n z : Bool) : nOf (packFlags v c n z) = n := by
  cases v <;> cases c <;> cases n <;> cases z <;> rfl

@[simp] theorem cOf_packFlags (v c n z : Bool) : cOf (packFlags v c n z) = c := by
  cases v <;> cases c <;> cases n <;> cases z <;> rfl

@[simp] theorem vOf_packFlags (v c n z : Bool) : vOf (packFlags v c n z) = v := by
  cases v <;> cases c <;> cases n <;> cases z <;> rfl

@[simp] theorem zOf_flagsOf (a b : Word) : zOf (flagsOf a b) = zeroFlag a b := zOf_packFlags ..

@[simp] theorem nOf_flagsOf (a b : Word) : nOf (flagsOf a b) = signFlag a b := nOf_packFlags ..

@[simp] theorem cOf_flagsOf (a b : Word) : cOf (flagsOf a b) = carryFlag a b := cOf_packFlags ..

@[simp] theorem vOf_flagsOf (a b : Word) : vOf (flagsOf a b) = overflowFlag a b := vOf_packFlags ..

theorem zeroFlag_iff (a b : Word) : zeroFlag a b = true ↔ a = b := by
  have h := trunc128_toNat ((uval a : Int) - (uval b : Int))
  have ha := a.isLt
  have hb := b.isLt
  simp only [zeroFlag, decide_eq_true_eq, ← BitVec.toNat_inj, difference, zero] at h ⊢
  simp only [uval, BitVec.toNat_ofNat] at h ⊢
  omega

theorem difference_toNat (a b : Word) : ((difference a b).toNat : Int) = ((a.toNat : Int) - b.toNat) % 2 ^ 128 :=
  trunc128_toNat _

theorem signFlag_iff (a b : Word) : signFlag a b = true ↔ 2 ^ 127 ≤ ((a.toNat : Int) - b.toNat) % 2 ^ 128 := by
  have h := difference_toNat a b
  rw [signFlag, signBit_iff]
  omega

theorem carryFlag_iff (a b : Word) : carryFlag a b = true ↔ a.toNat < b.toNat := decide_eq_true_iff

/-- V is exact signed overflow of the difference (R105). -/
theorem overflowFlag_iff (a b : Word) :
    overflowFlag a b = true ↔ ¬(-2 ^ 127 ≤ a.toInt - b.toInt ∧ a.toInt - b.toInt ≤ 2 ^ 127 - 1) := by
  have h := difference_toNat a b
  have ha := signBit_iff a
  have hb := signBit_iff b
  have hd := signBit_iff (difference a b)
  have la := a.isLt
  have lb := b.isLt
  rw [BitVec.toInt_eq_toNat_cond, BitVec.toInt_eq_toNat_cond]
  unfold overflowFlag
  cases sa : signBit a <;> cases sb : signBit b <;> cases sd : signBit (difference a b) <;>
    simp only [sa, sb, sd, Bool.false_eq_true, false_iff, true_iff, bne_self_eq_false,
      Bool.false_and, Bool.and_false, not_le] at ha hb hd ⊢ <;>
    simp <;> omega

/-- N differs from V exactly when `s(a) < s(b)` (R162, R173). -/
theorem signXorOverflow_iff (a b : Word) : (signFlag a b ^^ overflowFlag a b) = true ↔ a.toInt < b.toInt := by
  have h := difference_toNat a b
  have ha := signBit_iff a
  have hb := signBit_iff b
  have hd := signBit_iff (difference a b)
  have la := a.isLt
  have lb := b.isLt
  rw [BitVec.toInt_eq_toNat_cond, BitVec.toInt_eq_toNat_cond]
  unfold overflowFlag signFlag
  cases sa : signBit a <;> cases sb : signBit b <;> cases sd : signBit (difference a b) <;>
    simp only [sa, sb, sd, Bool.false_eq_true, false_iff, true_iff, bne_self_eq_false,
      Bool.false_and, Bool.and_false, not_le] at ha hb hd ⊢ <;>
    simp <;> omega

theorem equalFrom_iff (a b : Word) : equalFrom (flagsOf a b) = true ↔ a = b := by
  simp [equalFrom, zeroFlag_iff]

theorem unsignedLessFrom_iff (a b : Word) : unsignedLessFrom (flagsOf a b) = true ↔ a.toNat < b.toNat := by
  simp [unsignedLessFrom, carryFlag_iff]

theorem unsignedLessEqFrom_iff (a b : Word) : unsignedLessEqFrom (flagsOf a b) = true ↔ a.toNat ≤ b.toNat := by
  simp only [unsignedLessEqFrom, cOf_flagsOf, zOf_flagsOf, Bool.or_eq_true, carryFlag_iff, zeroFlag_iff,
    ← BitVec.toNat_inj]
  omega

theorem signedLessFrom_iff (a b : Word) : signedLessFrom (flagsOf a b) = true ↔ a.toInt < b.toInt := by
  rw [signedLessFrom, nOf_flagsOf, vOf_flagsOf, signXorOverflow_iff]

theorem signedLessEqFrom_iff (a b : Word) : signedLessEqFrom (flagsOf a b) = true ↔ a.toInt ≤ b.toInt := by
  rw [signedLessEqFrom, Bool.or_eq_true, nOf_flagsOf, vOf_flagsOf, signXorOverflow_iff, zOf_flagsOf, zeroFlag_iff,
    ← BitVec.toInt_inj]
  omega

end Sys2Proof.Machine
end

