-- ==== Sys2Proof/Laws/Compare.lean ====
section
/-! SUPPORT. Exactness of the predicates (R173): each meaning of Machine/Compare.lean, which is made from flags (R162),
drives the exact comparison of the operands' values. -/

namespace Sys2Proof.Machine

/-- A bit that holds exactly when `p` does is the decision of `p`. -/
theorem completePredicate_exact {c : Bool} {p : Prop} [Decidable p] (h : c = true ↔ p) (s : State) :
    completePredicate c s = completePredicate (decide p) s := by
  rw [Bool.eq_iff_iff.mpr (h.trans decide_eq_true_iff.symm)]

theorem execEq_exact (s : State) : execEq s = completePredicate (decide (s.a = s.b)) s :=
  completePredicate_exact (equalFrom_iff s.a s.b) s

theorem execLtu_exact (s : State) : execLtu s = completePredicate (decide (s.a.toNat < s.b.toNat)) s :=
  completePredicate_exact (unsignedLessFrom_iff s.a s.b) s

theorem execLeu_exact (s : State) : execLeu s = completePredicate (decide (s.a.toNat ≤ s.b.toNat)) s :=
  completePredicate_exact (unsignedLessEqFrom_iff s.a s.b) s

theorem execGtu_exact (s : State) : execGtu s = completePredicate (decide (s.a.toNat > s.b.toNat)) s :=
  completePredicate_exact (unsignedLessFrom_iff s.b s.a) s

theorem execGeu_exact (s : State) : execGeu s = completePredicate (decide (s.a.toNat ≥ s.b.toNat)) s :=
  completePredicate_exact (unsignedLessEqFrom_iff s.b s.a) s

theorem execLts_exact (s : State) : execLts s = completePredicate (decide (s.a.toInt < s.b.toInt)) s :=
  completePredicate_exact (signedLessFrom_iff s.a s.b) s

theorem execLes_exact (s : State) : execLes s = completePredicate (decide (s.a.toInt ≤ s.b.toInt)) s :=
  completePredicate_exact (signedLessEqFrom_iff s.a s.b) s

theorem execGts_exact (s : State) : execGts s = completePredicate (decide (s.a.toInt > s.b.toInt)) s :=
  completePredicate_exact (signedLessFrom_iff s.b s.a) s

theorem execGes_exact (s : State) : execGes s = completePredicate (decide (s.a.toInt ≥ s.b.toInt)) s :=
  completePredicate_exact (signedLessEqFrom_iff s.b s.a) s

end Sys2Proof.Machine
end

