-- ==== Sys2Proof/Laws/Decode.lean ====
section
/-! SUPPORT. The decoder and the encoder agree, and no two rows of the table share a code (R65). -/

namespace Sys2Proof

theorem decodeOp_encode (i : Instr) : decodeOp (encode i) = .ok i := by
  cases i <;> rfl

theorem encode_injective {i j : Instr} (h : encode i = encode j) : i = j := by
  have := congrArg decodeOp h
  simpa [decodeOp_encode] using this

/-- Every row names its operation's code, and compares all six bits. -/
theorem opTable_rows (r : OpRow) (h : r ∈ opTable) : r.mask = 0x3F#6 ∧ r.pattern = encode r.instr := by
  revert r
  decide

/-- "At most one row matches" (R65). -/
theorem opTable_disjoint : opTable.Pairwise fun r r' => r.pattern ≠ r'.pattern := by
  decide

theorem opMask_and (op : OpCode) : op &&& 0x3F#6 = op := by
  revert op
  decide

theorem encode_of_decodeOp {op : OpCode} {i : Instr} (h : decodeOp op = .ok i) : encode i = op := by
  unfold decodeOp at h
  split at h
  case h_1 r hr =>
    have hm := List.mem_of_find?_eq_some hr
    have ha := List.find?_some hr
    obtain ⟨hmask, hpat⟩ := opTable_rows r hm
    simp only [OpRow.admits, hmask, opMask_and, beq_iff_eq] at ha
    rw [← Except.ok.inj h, ← hpat, ha]
  case h_2 => cases h

/-- A code that the decoder refuses is refused by name. -/
theorem decodeOp_error {op : OpCode} {e : DecodeError} (h : decodeOp op = .error e) : e = .reserved op := by
  unfold decodeOp at h
  split at h
  · cases h
  · exact (Except.error.inj h).symm

theorem encode_ne_of_error {op : OpCode} {e : DecodeError} (h : decodeOp op = .error e) (i : Instr) :
    encode i ≠ op := by
  rintro rfl
  simp [decodeOp_encode] at h

end Sys2Proof
end

