-- ==== Sys2Proof/Laws/State.lean ====
section
/-! SUPPORT. One lemma per field of State per update, so that no proof unfolds a record update. -/

namespace Sys2Proof.Machine

@[simp] theorem drive_op (o : Outputs) (s : State) : (s.drive o).op = s.op := rfl

@[simp] theorem drive_a (o : Outputs) (s : State) : (s.drive o).a = s.a := rfl

@[simp] theorem drive_b (o : Outputs) (s : State) : (s.drive o).b = s.b := rfl

@[simp] theorem drive_y (o : Outputs) (s : State) : (s.drive o).y = o.y := rfl

@[simp] theorem drive_ovf (o : Outputs) (s : State) : (s.drive o).ovf = o.ovf := rfl

@[simp] theorem drive_flags (o : Outputs) (s : State) : (s.drive o).flags = o.flags := rfl

@[simp] theorem drive_ill (o : Outputs) (s : State) : (s.drive o).ill = o.ill := rfl

@[simp] theorem drive_draws (o : Outputs) (s : State) : (s.drive o).draws = s.draws := rfl

@[simp] theorem present_op (op : OpCode) (a b : Word) (s : State) : (s.present op a b).op = op := rfl

@[simp] theorem present_a (op : OpCode) (a b : Word) (s : State) : (s.present op a b).a = a := rfl

@[simp] theorem present_b (op : OpCode) (a b : Word) (s : State) : (s.present op a b).b = b := rfl

@[simp] theorem present_y (op : OpCode) (a b : Word) (s : State) : (s.present op a b).y = s.y := rfl

@[simp] theorem present_ovf (op : OpCode) (a b : Word) (s : State) : (s.present op a b).ovf = s.ovf := rfl

@[simp] theorem present_flags (op : OpCode) (a b : Word) (s : State) : (s.present op a b).flags = s.flags := rfl

@[simp] theorem present_ill (op : OpCode) (a b : Word) (s : State) : (s.present op a b).ill = s.ill := rfl

@[simp] theorem present_draws (op : OpCode) (a b : Word) (s : State) : (s.present op a b).draws = s.draws := rfl

@[simp] theorem driveResult_op (y : Word) (ovf : Bool) (s : State) : (driveResult y ovf s).op = s.op := rfl

@[simp] theorem driveResult_a (y : Word) (ovf : Bool) (s : State) : (driveResult y ovf s).a = s.a := rfl

@[simp] theorem driveResult_b (y : Word) (ovf : Bool) (s : State) : (driveResult y ovf s).b = s.b := rfl

@[simp] theorem driveResult_y (y : Word) (ovf : Bool) (s : State) : (driveResult y ovf s).y = y := rfl

@[simp] theorem driveResult_ovf (y : Word) (ovf : Bool) (s : State) : (driveResult y ovf s).ovf = ovf := rfl

@[simp] theorem driveResult_flags (y : Word) (ovf : Bool) (s : State) : (driveResult y ovf s).flags = flagsOf s.a s.b := rfl

@[simp] theorem driveResult_ill (y : Word) (ovf : Bool) (s : State) : (driveResult y ovf s).ill = false := rfl

@[simp] theorem driveResult_draws (y : Word) (ovf : Bool) (s : State) : (driveResult y ovf s).draws = s.draws := rfl

@[simp] theorem driveIllegal_op (s : State) : (driveIllegal s).op = s.op := rfl

@[simp] theorem driveIllegal_a (s : State) : (driveIllegal s).a = s.a := rfl

@[simp] theorem driveIllegal_b (s : State) : (driveIllegal s).b = s.b := rfl

@[simp] theorem driveIllegal_y (s : State) : (driveIllegal s).y = zero := rfl

@[simp] theorem driveIllegal_ovf (s : State) : (driveIllegal s).ovf = false := rfl

@[simp] theorem driveIllegal_flags (s : State) : (driveIllegal s).flags = flagsOf s.a s.b := rfl

@[simp] theorem driveIllegal_ill (s : State) : (driveIllegal s).ill = true := rfl

@[simp] theorem driveIllegal_draws (s : State) : (driveIllegal s).draws = s.draws := rfl

@[simp] theorem outputs_y (s : State) : s.outputs.y = s.y := rfl

@[simp] theorem outputs_ovf (s : State) : s.outputs.ovf = s.ovf := rfl

@[simp] theorem outputs_flags (s : State) : s.outputs.flags = s.flags := rfl

@[simp] theorem outputs_ill (s : State) : s.outputs.ill = s.ill := rfl

@[simp] theorem outputs_drive (o : Outputs) (s : State) : (s.drive o).outputs = o := rfl

@[simp] theorem drive_drive (o o' : Outputs) (s : State) : (s.drive o).drive o' = s.drive o' := rfl

@[simp] theorem drive_outputs (s : State) : s.drive s.outputs = s := rfl

end Sys2Proof.Machine
end

