-- ==== Sys2Proof/Laws/Step.lean ====
section
/-! SUPPORT. What an evaluation can do, said once: every operation answers a next state that differs from the old one in
the four outputs alone, and these are functions of the inputs alone. -/

namespace Sys2Proof.Machine

/-- Every operation drives a result that is a function of the two operands. -/
theorem exec_drives (i : Instr) :
    ∃ (f : Word → Word → Word) (g : Word → Word → Bool), ∀ s,
      exec i s = .next (driveResult (f s.a s.b) (g s.a s.b) s) :=
  ⟨fun a b => (shownOutputs (exec i (State.reset.present 0 a b))).y,
    fun a b => (shownOutputs (exec i (State.reset.present 0 a b))).ovf, by cases i <;> exact fun _ => rfl⟩

/-- The inversion lemma of `exec`. -/
theorem exec_cases {i : Instr} {s t : State} (h : exec i s = .next t) : ∃ y ovf, t = driveResult y ovf s := by
  obtain ⟨f, g, hfg⟩ := exec_drives i
  rw [hfg] at h
  exact ⟨_, _, (Host.Outcome.next.inj h).symm⟩

theorem step_of_ok {s : State} {i : Instr} (h : decodeOp (fetchOp s) = .ok i) : step s = exec i s := by
  simp [step, h]

theorem step_of_error {s : State} {e : DecodeError} (h : decodeOp (fetchOp s) = .error e) :
    step s = .next (driveIllegal s) := by
  simp [step, h]

/-- The inversion lemma of `step`: the operation's evaluation, or the reserved behaviour. -/
theorem step_cases (s : State) :
    (∃ i, encode i = s.op ∧ step s = exec i s) ∨ ((∀ i, encode i ≠ s.op) ∧ step s = .next (driveIllegal s)) := by
  cases h : decodeOp (fetchOp s) with
  | ok i => exact .inl ⟨i, encode_of_decodeOp h, step_of_ok h⟩
  | error e => exact .inr ⟨encode_ne_of_error h, step_of_error h⟩

end Sys2Proof.Machine
end

