-- ==== Sys2Proof/Laws/Evaluate.lean ====
section
/-! SUPPORT. The evaluation function (R35) on each code: the four outputs by the operation's own result functions, so that
no proof unfolds the step. -/

namespace Sys2Proof.Machine

/-- On an operation's code the evaluation function shows that operation's evaluation. -/
theorem evaluate_encode (i : Instr) (a b : Word) :
    evaluate (encode i) a b = shownOutputs (exec i (State.reset.present (encode i) a b)) :=
  congrArg shownOutputs (step_of_ok (s := State.reset.present (encode i) a b) (decodeOp_encode i))

@[simp] theorem evaluate_zext64 (a b : Word) :
    evaluate 0x00#6 a b = ⟨zext64Result a, false, flagsOf a b, false⟩ :=
  evaluate_encode .zext64 a b

@[simp] theorem evaluate_sext64 (a b : Word) :
    evaluate 0x01#6 a b = ⟨sext64Result a, false, flagsOf a b, false⟩ :=
  evaluate_encode .sext64 a b

@[simp] theorem evaluate_sign (a b : Word) :
    evaluate 0x02#6 a b = ⟨signResult a, false, flagsOf a b, false⟩ :=
  evaluate_encode .sign a b

@[simp] theorem evaluate_mulw (a b : Word) :
    evaluate 0x08#6 a b = ⟨mulwResult a b, false, flagsOf a b, false⟩ :=
  evaluate_encode .mulw a b

@[simp] theorem evaluate_mul (a b : Word) :
    evaluate 0x09#6 a b = ⟨mulResult a b, mulOverflow a b, flagsOf a b, false⟩ :=
  evaluate_encode .mul a b

@[simp] theorem evaluate_add (a b : Word) :
    evaluate 0x10#6 a b = ⟨addResult a b, addCarry a b, flagsOf a b, false⟩ :=
  evaluate_encode .add a b

@[simp] theorem evaluate_sub (a b : Word) :
    evaluate 0x11#6 a b = ⟨subResult a b, subBorrow a b, flagsOf a b, false⟩ :=
  evaluate_encode .sub a b

@[simp] theorem evaluate_adds (a b : Word) :
    evaluate 0x12#6 a b = ⟨addResult a b, addOverflow a b, flagsOf a b, false⟩ :=
  evaluate_encode .adds a b

@[simp] theorem evaluate_subs (a b : Word) :
    evaluate 0x13#6 a b = ⟨subResult a b, subOverflow a b, flagsOf a b, false⟩ :=
  evaluate_encode .subs a b

@[simp] theorem evaluate_sub64 (a b : Word) :
    evaluate 0x14#6 a b = ⟨sub64Result a b, sub64Borrow a b, flagsOf a b, false⟩ :=
  evaluate_encode .sub64 a b

@[simp] theorem evaluate_neg (a b : Word) :
    evaluate 0x18#6 a b = ⟨negResult a, false, flagsOf a b, false⟩ :=
  evaluate_encode .neg a b

@[simp] theorem evaluate_abs (a b : Word) :
    evaluate 0x19#6 a b = ⟨absResult a, false, flagsOf a b, false⟩ :=
  evaluate_encode .abs a b

@[simp] theorem evaluate_and (a b : Word) :
    evaluate 0x20#6 a b = ⟨andResult a b, false, flagsOf a b, false⟩ :=
  evaluate_encode .and a b

@[simp] theorem evaluate_or (a b : Word) :
    evaluate 0x21#6 a b = ⟨orResult a b, false, flagsOf a b, false⟩ :=
  evaluate_encode .or a b

@[simp] theorem evaluate_xor (a b : Word) :
    evaluate 0x22#6 a b = ⟨xorResult a b, false, flagsOf a b, false⟩ :=
  evaluate_encode .xor a b

@[simp] theorem evaluate_not (a b : Word) :
    evaluate 0x23#6 a b = ⟨notResult a, false, flagsOf a b, false⟩ :=
  evaluate_encode .not a b

@[simp] theorem evaluate_shl (a b : Word) :
    evaluate 0x28#6 a b = ⟨shlResult a (shiftAmount b), false, flagsOf a b, false⟩ :=
  evaluate_encode .shl a b

@[simp] theorem evaluate_shr (a b : Word) :
    evaluate 0x29#6 a b = ⟨shrResult a (shiftAmount b), false, flagsOf a b, false⟩ :=
  evaluate_encode .shr a b

@[simp] theorem evaluate_sar (a b : Word) :
    evaluate 0x2A#6 a b = ⟨sarResult a (shiftAmount b), false, flagsOf a b, false⟩ :=
  evaluate_encode .sar a b

@[simp] theorem evaluate_cmp (a b : Word) :
    evaluate 0x30#6 a b = ⟨zextFlags (flagsOf a b), false, flagsOf a b, false⟩ :=
  evaluate_encode .cmp a b

@[simp] theorem evaluate_eq (a b : Word) :
    evaluate 0x31#6 a b = ⟨zextBit (equalFrom (flagsOf a b)), false, flagsOf a b, false⟩ :=
  evaluate_encode .eq a b

@[simp] theorem evaluate_ltu (a b : Word) :
    evaluate 0x32#6 a b = ⟨zextBit (unsignedLessFrom (flagsOf a b)), false, flagsOf a b, false⟩ :=
  evaluate_encode .ltu a b

@[simp] theorem evaluate_leu (a b : Word) :
    evaluate 0x33#6 a b = ⟨zextBit (unsignedLessEqFrom (flagsOf a b)), false, flagsOf a b, false⟩ :=
  evaluate_encode .leu a b

@[simp] theorem evaluate_gtu (a b : Word) :
    evaluate 0x34#6 a b = ⟨zextBit (unsignedLessFrom (flagsOf b a)), false, flagsOf a b, false⟩ :=
  evaluate_encode .gtu a b

@[simp] theorem evaluate_geu (a b : Word) :
    evaluate 0x35#6 a b = ⟨zextBit (unsignedLessEqFrom (flagsOf b a)), false, flagsOf a b, false⟩ :=
  evaluate_encode .geu a b

@[simp] theorem evaluate_lts (a b : Word) :
    evaluate 0x3A#6 a b = ⟨zextBit (signedLessFrom (flagsOf a b)), false, flagsOf a b, false⟩ :=
  evaluate_encode .lts a b

@[simp] theorem evaluate_les (a b : Word) :
    evaluate 0x3B#6 a b = ⟨zextBit (signedLessEqFrom (flagsOf a b)), false, flagsOf a b, false⟩ :=
  evaluate_encode .les a b

@[simp] theorem evaluate_gts (a b : Word) :
    evaluate 0x3C#6 a b = ⟨zextBit (signedLessFrom (flagsOf b a)), false, flagsOf a b, false⟩ :=
  evaluate_encode .gts a b

@[simp] theorem evaluate_ges (a b : Word) :
    evaluate 0x3D#6 a b = ⟨zextBit (signedLessEqFrom (flagsOf b a)), false, flagsOf a b, false⟩ :=
  evaluate_encode .ges a b

end Sys2Proof.Machine
end

