-- ==== Sys2Proof/Laws/PerInstr.lean ====
section
/-! SUPPORT. Facts about every operation as syntax, one lemma per constructor. -/

/-- The code of the operation decodes to it, from the `op` port and from a table word of eight bits (R61, R65). -/
def Sys2Proof.Laws.RoundTrip.Statement (i : Sys2Proof.Instr) : Prop :=
  Sys2Proof.decodeOp (Sys2Proof.encode i) = .ok i ∧ Sys2Proof.decodeTableWord 8 (Sys2Proof.encode i).toNat = some i

theorem Sys2Proof.Laws.RoundTrip.zext64 : Sys2Proof.Laws.RoundTrip.Statement .zext64 := ⟨rfl, rfl⟩

theorem Sys2Proof.Laws.RoundTrip.sext64 : Sys2Proof.Laws.RoundTrip.Statement .sext64 := ⟨rfl, rfl⟩

theorem Sys2Proof.Laws.RoundTrip.sign : Sys2Proof.Laws.RoundTrip.Statement .sign := ⟨rfl, rfl⟩

theorem Sys2Proof.Laws.RoundTrip.mulw : Sys2Proof.Laws.RoundTrip.Statement .mulw := ⟨rfl, rfl⟩

theorem Sys2Proof.Laws.RoundTrip.mul : Sys2Proof.Laws.RoundTrip.Statement .mul := ⟨rfl, rfl⟩

theorem Sys2Proof.Laws.RoundTrip.add : Sys2Proof.Laws.RoundTrip.Statement .add := ⟨rfl, rfl⟩

theorem Sys2Proof.Laws.RoundTrip.sub : Sys2Proof.Laws.RoundTrip.Statement .sub := ⟨rfl, rfl⟩

theorem Sys2Proof.Laws.RoundTrip.adds : Sys2Proof.Laws.RoundTrip.Statement .adds := ⟨rfl, rfl⟩

theorem Sys2Proof.Laws.RoundTrip.subs : Sys2Proof.Laws.RoundTrip.Statement .subs := ⟨rfl, rfl⟩

theorem Sys2Proof.Laws.RoundTrip.sub64 : Sys2Proof.Laws.RoundTrip.Statement .sub64 := ⟨rfl, rfl⟩

theorem Sys2Proof.Laws.RoundTrip.neg : Sys2Proof.Laws.RoundTrip.Statement .neg := ⟨rfl, rfl⟩

theorem Sys2Proof.Laws.RoundTrip.abs : Sys2Proof.Laws.RoundTrip.Statement .abs := ⟨rfl, rfl⟩

theorem Sys2Proof.Laws.RoundTrip.and : Sys2Proof.Laws.RoundTrip.Statement .and := ⟨rfl, rfl⟩

theorem Sys2Proof.Laws.RoundTrip.or : Sys2Proof.Laws.RoundTrip.Statement .or := ⟨rfl, rfl⟩

theorem Sys2Proof.Laws.RoundTrip.xor : Sys2Proof.Laws.RoundTrip.Statement .xor := ⟨rfl, rfl⟩

theorem Sys2Proof.Laws.RoundTrip.not : Sys2Proof.Laws.RoundTrip.Statement .not := ⟨rfl, rfl⟩

theorem Sys2Proof.Laws.RoundTrip.shl : Sys2Proof.Laws.RoundTrip.Statement .shl := ⟨rfl, rfl⟩

theorem Sys2Proof.Laws.RoundTrip.shr : Sys2Proof.Laws.RoundTrip.Statement .shr := ⟨rfl, rfl⟩

theorem Sys2Proof.Laws.RoundTrip.sar : Sys2Proof.Laws.RoundTrip.Statement .sar := ⟨rfl, rfl⟩

theorem Sys2Proof.Laws.RoundTrip.cmp : Sys2Proof.Laws.RoundTrip.Statement .cmp := ⟨rfl, rfl⟩

theorem Sys2Proof.Laws.RoundTrip.eq : Sys2Proof.Laws.RoundTrip.Statement .eq := ⟨rfl, rfl⟩

theorem Sys2Proof.Laws.RoundTrip.ltu : Sys2Proof.Laws.RoundTrip.Statement .ltu := ⟨rfl, rfl⟩

theorem Sys2Proof.Laws.RoundTrip.leu : Sys2Proof.Laws.RoundTrip.Statement .leu := ⟨rfl, rfl⟩

theorem Sys2Proof.Laws.RoundTrip.gtu : Sys2Proof.Laws.RoundTrip.Statement .gtu := ⟨rfl, rfl⟩

theorem Sys2Proof.Laws.RoundTrip.geu : Sys2Proof.Laws.RoundTrip.Statement .geu := ⟨rfl, rfl⟩

theorem Sys2Proof.Laws.RoundTrip.lts : Sys2Proof.Laws.RoundTrip.Statement .lts := ⟨rfl, rfl⟩

theorem Sys2Proof.Laws.RoundTrip.les : Sys2Proof.Laws.RoundTrip.Statement .les := ⟨rfl, rfl⟩

theorem Sys2Proof.Laws.RoundTrip.gts : Sys2Proof.Laws.RoundTrip.Statement .gts := ⟨rfl, rfl⟩

theorem Sys2Proof.Laws.RoundTrip.ges : Sys2Proof.Laws.RoundTrip.Statement .ges := ⟨rfl, rfl⟩
end

