-- ==== Sys2Proof/Laws/Results.lean ====
section
/-! SUPPORT. The result functions, which narrow exact integers, as the operations of BitVec. -/

namespace Sys2Proof.Machine

theorem addResult_eq (a b : Word) : addResult a b = a + b := trunc128_add a b

theorem subResult_eq (a b : Word) : subResult a b = a - b := trunc128_sub a b

theorem mulResult_eq (a b : Word) : mulResult a b = a * b := trunc128_mul a b

theorem negResult_eq (a : Word) : negResult a = -a := trunc128_neg a

theorem absResult_eq (a : Word) : absResult a = if a.msb then -a else a := by
  rw [absResult, signBit_eq_msb, trunc128_neg]

theorem sub64Result_eq (a b : Word) : sub64Result a b = a - zextLimb (lo b) := by
  rw [← trunc128_sub, uval, uval, zextLimb_toNat]
  rfl

theorem mulwResult_toNat (a b : Word) : (mulwResult a b).toNat = (lo a).toNat * (lo b).toNat := by
  have h : (lo a).toNat * (lo b).toNat < 2 ^ 64 * 2 ^ 64 := Nat.mul_lt_mul'' (lo a).isLt (lo b).isLt
  rw [mulwResult, ← Int.natCast_mul, trunc128_natCast, BitVec.toNat_ofNat]
  omega

theorem shlResult_eq (a : Word) (n : Nat) : shlResult a n = a <<< n := by
  unfold shlResult
  split
  case isTrue h => simp [zero, BitVec.shiftLeft_eq_zero h]
  case isFalse h =>
    rw [← Int.natCast_mul, trunc128_natCast]
    apply BitVec.eq_of_toNat_eq
    simp [uval, twoTo_eq, Nat.shiftLeft_eq]

theorem shrResult_eq (a : Word) (n : Nat) : shrResult a n = a >>> n := by
  unfold shrResult
  split
  case isTrue h => simp [zero, BitVec.ushiftRight_eq_zero h]
  case isFalse h =>
    rw [trunc128_natCast]
    apply BitVec.eq_of_toNat_eq
    have := a.isLt
    have hle : a.toNat / 2 ^ n ≤ a.toNat := Nat.div_le_self ..
    simp only [uval, twoTo_eq, BitVec.toNat_ofNat, BitVec.toNat_ushiftRight, Nat.shiftRight_eq_div_pow]
    exact Nat.mod_eq_of_lt (by omega)

theorem sarResult_eq (a : Word) (n : Nat) : sarResult a n = a.sshiftRight n := by
  unfold sarResult
  split
  case isTrue h =>
    apply BitVec.eq_of_getLsbD_eq
    intro k hk
    rw [BitVec.getLsbD_sshiftRight, signBit_eq_msb]
    have hn : ¬ n + k < 128 := by omega
    cases a.msb
    · simp [hn, zero]
    · have hones : maxUnsigned = BitVec.allOnes 128 := rfl
      simp only [if_true, hones, BitVec.getLsbD_allOnes, hn, if_false]
      simp [hk]
  case isFalse h =>
    rw [sval_eq_toInt, trunc128, BitVec.sshiftRight, twoTo_eq, Int.shiftRight_eq_div_pow]

end Sys2Proof.Machine
end

