-- ==== Sys2Proof/Laws/Sequence.lean ====
section
/-! SUPPORT. The variables of a host sequence: what a read sees after an assignment, and that the form stays canonical. -/

namespace Sys2Proof.Machine

@[simp] theorem getVar_setVar_same (x : Nat) (o : Outputs) (vars : List (Nat × Outputs)) :
    getVar x (setVar x o vars) = some o := by
  induction vars with
  | nil => simp [setVar, getVar]
  | cons p rest ih =>
    obtain ⟨k, v⟩ := p
    simp only [setVar]
    split
    · simp [getVar]
    · split
      · simp [getVar]
      · rename_i hlt hne
        simpa [getVar, Ne.symm hne] using ih

theorem getVar_setVar_other {x z : Nat} (o : Outputs) (vars : List (Nat × Outputs)) (h : z ≠ x) :
    getVar z (setVar x o vars) = getVar z vars := by
  induction vars with
  | nil => simp [setVar, getVar, Ne.symm h]
  | cons p rest ih =>
    obtain ⟨k, v⟩ := p
    simp only [setVar]
    split
    · simp [getVar, Ne.symm h]
    · split
      · rename_i hk
        simp [getVar, Ne.symm h, ← hk]
      · simp [getVar, ih]

theorem mem_setVar {x : Nat} {o : Outputs} {vars : List (Nat × Outputs)} {p : Nat × Outputs}
    (h : p ∈ setVar x o vars) : p = (x, o) ∨ p ∈ vars := by
  induction vars with
  | nil => simpa [setVar] using h
  | cons q rest ih =>
    obtain ⟨k, v⟩ := q
    simp only [setVar] at h
    split at h
    · simpa using h
    · split at h
      · rcases List.mem_cons.mp h with rfl | h
        · exact .inl rfl
        · exact .inr (List.mem_cons_of_mem _ h)
      · rcases List.mem_cons.mp h with rfl | h
        · exact .inr List.mem_cons_self
        · rcases ih h with rfl | h
          · exact .inl rfl
          · exact .inr (List.mem_cons_of_mem _ h)

/-- An assignment keeps the canonical form. -/
theorem setVar_wf (x : Nat) (o : Outputs) {vars : List (Nat × Outputs)} (h : varsWf vars = true) :
    varsWf (setVar x o vars) = true := by
  simp only [varsWf, decide_eq_true_eq] at h ⊢
  induction vars with
  | nil => simp [setVar]
  | cons q rest ih =>
    obtain ⟨k, v⟩ := q
    obtain ⟨hk, hrest⟩ := List.pairwise_cons.mp h
    simp only [setVar]
    split
    case isTrue hx =>
      refine List.pairwise_cons.mpr ⟨fun p hp => ?_, h⟩
      rcases List.mem_cons.mp hp with rfl | hp
      · exact hx
      · exact Nat.lt_trans hx (hk p hp)
    case isFalse hx =>
      split
      case isTrue he => exact List.pairwise_cons.mpr ⟨fun p hp => he ▸ hk p hp, hrest⟩
      case isFalse hne =>
        refine List.pairwise_cons.mpr ⟨fun p hp => ?_, ih hrest⟩
        rcases mem_setVar hp with rfl | hp
        · show k < x
          omega
        · exact hk p hp

theorem seqStart_wf (given : List (Nat × Word)) : varsWf (seqStart given).vars = true := by
  suffices h : ∀ vars : List (Nat × Outputs), varsWf vars = true →
      varsWf (given.foldl (fun vars p => setVar p.1 (startValue p.1 p.2) vars) vars) = true from
    h [] rfl
  induction given with
  | nil => exact fun _ h => h
  | cons p rest ih => exact fun vars h => ih _ (setVar_wf _ _ h)

end Sys2Proof.Machine
end

