-- ==== Sys2Proof/Tests/Slice0.lean ====
section
/-! SUPPORT. The model's own tests: ill-formed terms that the checks refuse, words written out from the table of R61,
vectors of spec/95_test_vectors.md (two at most per operation, one step each), and for each statement with hypotheses a
witness that meets them. Every expected value is the spec's. -/

namespace Sys2Proof.Tests

open Sys2Proof Sys2Proof.Machine

/-- The ports with these inputs, before an evaluation. -/
def ports (op : OpCode) (a b : Word) : State := State.reset.present op a b

/-- One step from `s` shows these four outputs. -/
def shows (s : State) (y : Word) (ovf : Bool) (flags : FlagBits) (ill : Bool) : Bool :=
  match step s with
  | .next t => decide (t.y = y) && decide (t.ovf = ovf) && decide (t.flags = flags) && decide (t.ill = ill)
  | .fault _ => false
  | .refused _ => false

/-! ### The checks refuse ill-formed terms -/

/-- The port has six bits (R31). -/
theorem test_op_fits : opFits 63 = true ∧ opFits 64 = false := by decide

/-- An operand port has 128 bits (R31). -/
theorem test_operand_fits :
    operandFits 0xFFFFFFFFFFFFFFFFFFFFFFFFFFFFFFFF = true ∧
      operandFits 0x100000000000000000000000000000000 = false := by decide

/-- A unary operation names one operand and a binary one two (R69). -/
theorem test_operand_count :
    operandCountFits .neg none = true ∧ operandCountFits .neg (some (.const 0#128)) = false ∧
      operandCountFits .add (some (.const 0#128)) = true ∧ operandCountFits .add none = false := by decide

/-- A label that marks no line is no target (R69). -/
theorem test_target_exists : targetExists [⟨[1], .halt⟩] 1 = true ∧ targetExists [⟨[1], .halt⟩] 2 = false := by decide

/-- A branch to a label that marks no line, and a binary operation with one operand, are ill formed (R69). -/
theorem test_statement_well_formed :
    SeqStmt.wellFormed [⟨[1], .halt⟩] (.branch 0 .ovf true true 1) = true ∧
      SeqStmt.wellFormed [⟨[1], .halt⟩] (.branch 0 .ovf true true 2) = false ∧
      SeqStmt.wellFormed [] (.eval 0 .add (.var 1) none) = false := by decide

/-- A label marks one line only (R69). -/
theorem test_labels_unique :
    seqWellFormed [⟨[1], .halt⟩, ⟨[2], .halt⟩] = true ∧ seqWellFormed [⟨[1], .halt⟩, ⟨[1], .halt⟩] = false := by decide

/-! ### Codes written out bit by bit -/

/-- R61, the binary column of group 000. -/
theorem test_decode_conversion :
    decodeOp 0b000000#6 = .ok .zext64 ∧
    decodeOp 0b000001#6 = .ok .sext64 ∧
    decodeOp 0b000010#6 = .ok .sign := by
  exact ⟨rfl, rfl, rfl⟩

/-- R61, the binary column of group 001. -/
theorem test_decode_multiply :
    decodeOp 0b001000#6 = .ok .mulw ∧
    decodeOp 0b001001#6 = .ok .mul := by
  exact ⟨rfl, rfl⟩

/-- R61, the binary column of group 010. -/
theorem test_decode_addsub :
    decodeOp 0b010000#6 = .ok .add ∧
    decodeOp 0b010001#6 = .ok .sub ∧
    decodeOp 0b010010#6 = .ok .adds ∧
    decodeOp 0b010011#6 = .ok .subs ∧
    decodeOp 0b010100#6 = .ok .sub64 := by
  exact ⟨rfl, rfl, rfl, rfl, rfl⟩

/-- R61, the binary column of group 011. -/
theorem test_decode_derived :
    decodeOp 0b011000#6 = .ok .neg ∧
    decodeOp 0b011001#6 = .ok .abs := by
  exact ⟨rfl, rfl⟩

/-- R61, the binary column of group 100. -/
theorem test_decode_logic :
    decodeOp 0b100000#6 = .ok .and ∧
    decodeOp 0b100001#6 = .ok .or ∧
    decodeOp 0b100010#6 = .ok .xor ∧
    decodeOp 0b100011#6 = .ok .not := by
  exact ⟨rfl, rfl, rfl, rfl⟩

/-- R61, the binary column of group 101. -/
theorem test_decode_shift :
    decodeOp 0b101000#6 = .ok .shl ∧
    decodeOp 0b101001#6 = .ok .shr ∧
    decodeOp 0b101010#6 = .ok .sar := by
  exact ⟨rfl, rfl, rfl⟩

/-- R61, the binary column of group 110. -/
theorem test_decode_compare_unsigned :
    decodeOp 0b110000#6 = .ok .cmp ∧
    decodeOp 0b110001#6 = .ok .eq ∧
    decodeOp 0b110010#6 = .ok .ltu ∧
    decodeOp 0b110011#6 = .ok .leu ∧
    decodeOp 0b110100#6 = .ok .gtu ∧
    decodeOp 0b110101#6 = .ok .geu := by
  exact ⟨rfl, rfl, rfl, rfl, rfl, rfl⟩

/-- R61, the binary column of group 111. -/
theorem test_decode_compare_signed :
    decodeOp 0b111010#6 = .ok .lts ∧
    decodeOp 0b111011#6 = .ok .les ∧
    decodeOp 0b111100#6 = .ok .gts ∧
    decodeOp 0b111101#6 = .ok .ges := by
  exact ⟨rfl, rfl, rfl, rfl⟩

/-- Reserved codes are rejected by name (R66): a gap inside a group, and the last code. -/
theorem test_decode_reserved :
    decodeOp 0b000011#6 = .error (.reserved 0b000011#6) ∧ decodeOp 0b111000#6 = .error (.reserved 0b111000#6) ∧
      decodeOp 0b111111#6 = .error (.reserved 0b111111#6) := by exact ⟨rfl, rfl, rfl⟩

/-- A word with a bit above the six of the port names no operation, and a reserved code neither (R31, R66). -/
theorem test_decode_word :
    decodeTableWord 8 0x10 = some .add ∧ decodeTableWord 8 0x50 = none ∧ decodeTableWord 8 0x03 = none := by decide

/-- A presented word runs as the next step after reset (log entry 2). -/
theorem test_fetch_word : step (State.reset.withFetchWord 8 0x23) = exec .not (State.reset.withFetchWord 8 0x23) := by rfl

/-! ### Vectors of the spec -/

/-- V1 of spec/95_test_vectors.md. -/
theorem test_zext64_v1 :
    shows (ports 0x00#6 0x0000000000000000FFFFFFFFFFFFFFFF#128
        0x00000000000000000000000000000000#128)
      0x0000000000000000FFFFFFFFFFFFFFFF#128 false 0x0#4 false = true := by decide

/-- V3 of spec/95_test_vectors.md. -/
theorem test_zext64_v3 :
    shows (ports 0x00#6 0x123456789ABCDEF08000000000000005#128
        0x00000000000000000000000000000000#128)
      0x00000000000000008000000000000005#128 false 0x0#4 false = true := by decide

/-- V4 of spec/95_test_vectors.md. -/
theorem test_sext64_v4 :
    shows (ports 0x01#6 0x00000000000000008000000000000000#128
        0x00000000000000000000000000000000#128)
      0xFFFFFFFFFFFFFFFF8000000000000000#128 false 0x0#4 false = true := by decide

/-- V7 of spec/95_test_vectors.md. -/
theorem test_sext64_v7 :
    shows (ports 0x01#6 0xDEAD0000000000000000000000000001#128
        0x00000000000000000000000000000000#128)
      0x00000000000000000000000000000001#128 false 0x2#4 false = true := by decide

/-- V8 of spec/95_test_vectors.md. -/
theorem test_sign_v8 :
    shows (ports 0x02#6 0x80000000000000000000000000000000#128
        0x00000000000000000000000000000000#128)
      0x00000000000000000000000000000001#128 false 0x2#4 false = true := by decide

/-- V9 of spec/95_test_vectors.md. -/
theorem test_sign_v9 :
    shows (ports 0x02#6 0x7FFFFFFFFFFFFFFFFFFFFFFFFFFFFFFF#128
        0x00000000000000000000000000000000#128)
      0x00000000000000000000000000000000#128 false 0x0#4 false = true := by decide

/-- V12 of spec/95_test_vectors.md. -/
theorem test_mulw_v12 :
    shows (ports 0x08#6 0x0000000000000000123456789ABCDEF0#128
        0x00000000000000000FEDCBA987654321#128)
      0x0121FA00AD77D7422236D88FE5618CF0#128 false 0x0#4 false = true := by decide

/-- V15 of spec/95_test_vectors.md. -/
theorem test_mulw_v15 :
    shows (ports 0x08#6 0xFFFF0000000000000000000000000003#128
        0x11110000000000000000000000000005#128)
      0x0000000000000000000000000000000F#128 false 0x2#4 false = true := by decide

/-- V22 of spec/95_test_vectors.md. -/
theorem test_mul_v22 :
    shows (ports 0x09#6 0x00000000000000010000000000000001#128
        0x0000000000000000FFFFFFFFFFFFFFFF#128)
      0xFFFFFFFFFFFFFFFFFFFFFFFFFFFFFFFF#128 false 0x0#4 false = true := by decide

/-- V23 of spec/95_test_vectors.md. -/
theorem test_mul_v23 :
    shows (ports 0x09#6 0x00000001000000000000000000000000#128
        0x00000001000000000000000000000000#128)
      0x00000000000000000000000000000000#128 true 0x1#4 false = true := by decide

/-- V28 of spec/95_test_vectors.md. -/
theorem test_add_v28 :
    shows (ports 0x10#6 0xFFFFFFFFFFFFFFFFFFFFFFFFFFFFFFFF#128
        0x00000000000000000000000000000001#128)
      0x00000000000000000000000000000000#128 true 0x2#4 false = true := by decide

/-- V31 of spec/95_test_vectors.md. -/
theorem test_add_v31 :
    shows (ports 0x10#6 0x123456789ABCDEF0FFFFFFFFFFFFFFFF#128
        0x00000000000000010000000000000001#128)
      0x123456789ABCDEF20000000000000000#128 false 0x0#4 false = true := by decide

/-- V34 of spec/95_test_vectors.md. -/
theorem test_sub_v34 :
    shows (ports 0x11#6 0x00000000000000000000000000000000#128
        0x00000000000000000000000000000001#128)
      0xFFFFFFFFFFFFFFFFFFFFFFFFFFFFFFFF#128 true 0x6#4 false = true := by decide

/-- V35 of spec/95_test_vectors.md. -/
theorem test_sub_v35 :
    shows (ports 0x11#6 0x00000000000000010000000000000000#128
        0x00000000000000000000000000000001#128)
      0x0000000000000000FFFFFFFFFFFFFFFF#128 false 0x0#4 false = true := by decide

/-- V39 of spec/95_test_vectors.md. -/
theorem test_adds_v39 :
    shows (ports 0x12#6 0x80000000000000000000000000000000#128
        0xFFFFFFFFFFFFFFFFFFFFFFFFFFFFFFFF#128)
      0x7FFFFFFFFFFFFFFFFFFFFFFFFFFFFFFF#128 true 0x6#4 false = true := by decide

/-- V41 of spec/95_test_vectors.md. -/
theorem test_adds_v41 :
    shows (ports 0x12#6 0x7FFFFFFFFFFFFFFFFFFFFFFFFFFFFFFF#128
        0xFFFFFFFFFFFFFFFFFFFFFFFFFFFFFFFF#128)
      0x7FFFFFFFFFFFFFFFFFFFFFFFFFFFFFFE#128 false 0xE#4 false = true := by decide

/-- V45 of spec/95_test_vectors.md. -/
theorem test_subs_v45 :
    shows (ports 0x13#6 0x7FFFFFFFFFFFFFFFFFFFFFFFFFFFFFFF#128
        0xFFFFFFFFFFFFFFFFFFFFFFFFFFFFFFFF#128)
      0x80000000000000000000000000000000#128 true 0xE#4 false = true := by decide

/-- V47 of spec/95_test_vectors.md. -/
theorem test_subs_v47 :
    shows (ports 0x13#6 0x80000000000000000000000000000000#128
        0xFFFFFFFFFFFFFFFFFFFFFFFFFFFFFFFF#128)
      0x80000000000000000000000000000001#128 false 0x6#4 false = true := by decide

/-- V50 of spec/95_test_vectors.md. -/
theorem test_sub64_v50 :
    shows (ports 0x14#6 0x00000000000000010000000000000000#128
        0x00000000000000000000000000000001#128)
      0x0000000000000000FFFFFFFFFFFFFFFF#128 false 0x0#4 false = true := by decide

/-- V53 of spec/95_test_vectors.md. -/
theorem test_sub64_v53 :
    shows (ports 0x14#6 0x0000000000000000000000000000000A#128
        0x000000000000AAAA0000000000000003#128)
      0x00000000000000000000000000000007#128 false 0x6#4 false = true := by decide

/-- V57 of spec/95_test_vectors.md. -/
theorem test_neg_v57 :
    shows (ports 0x18#6 0x80000000000000000000000000000000#128
        0x00000000000000000000000000000000#128)
      0x80000000000000000000000000000000#128 false 0x2#4 false = true := by decide

/-- V60 of spec/95_test_vectors.md. -/
theorem test_neg_v60 :
    shows (ports 0x18#6 0xFFFFFFFFFFFFFFFF0000000000000000#128
        0x00000000000000000000000000000000#128)
      0x00000000000000010000000000000000#128 false 0x2#4 false = true := by decide

/-- V61 of spec/95_test_vectors.md. -/
theorem test_abs_v61 :
    shows (ports 0x19#6 0xFFFFFFFFFFFFFFFFFFFFFFFFFFFFFFFB#128
        0x00000000000000000000000000000000#128)
      0x00000000000000000000000000000005#128 false 0x2#4 false = true := by decide

/-- V62 of spec/95_test_vectors.md. -/
theorem test_abs_v62 :
    shows (ports 0x19#6 0x80000000000000000000000000000000#128
        0x00000000000000000000000000000000#128)
      0x80000000000000000000000000000000#128 false 0x2#4 false = true := by decide

/-- V66 of spec/95_test_vectors.md. -/
theorem test_and_v66 :
    shows (ports 0x20#6 0xFF00FF00FF00FF000F0F0F0F0F0F0F0F#128
        0x0FF00FF00FF00FF0FFFF0000FFFF0000#128)
      0x0F000F000F000F000F0F00000F0F0000#128 false 0x2#4 false = true := by decide

/-- V67 of spec/95_test_vectors.md. -/
theorem test_or_v67 :
    shows (ports 0x21#6 0xFF00FF00FF00FF000F0F0F0F0F0F0F0F#128
        0x0FF00FF00FF00FF0FFFF0000FFFF0000#128)
      0xFFF0FFF0FFF0FFF0FFFF0F0FFFFF0F0F#128 false 0x2#4 false = true := by decide

/-- V68 of spec/95_test_vectors.md. -/
theorem test_xor_v68 :
    shows (ports 0x22#6 0xFF00FF00FF00FF000F0F0F0F0F0F0F0F#128
        0x0FF00FF00FF00FF0FFFF0000FFFF0000#128)
      0xF0F0F0F0F0F0F0F0F0F00F0FF0F00F0F#128 false 0x2#4 false = true := by decide

/-- V69 of spec/95_test_vectors.md. -/
theorem test_not_v69 :
    shows (ports 0x23#6 0x0000000000000000FFFFFFFFFFFFFFFF#128
        0x00000000000000000000000000000000#128)
      0xFFFFFFFFFFFFFFFF0000000000000000#128 false 0x0#4 false = true := by decide

/-- V89 of spec/95_test_vectors.md. -/
theorem test_shl_v89 :
    shows (ports 0x28#6 0x8123456789ABCDEFFEDCBA9876543210#128
        0x00000000000000010000000000000000#128)
      0x00000000000000000000000000000000#128 false 0x2#4 false = true := by decide

/-- V93 of spec/95_test_vectors.md. -/
theorem test_shl_v93 :
    shows (ports 0x28#6 0x8123456789ABCDEFFEDCBA9876543210#128
        0x00000000000000000000000000000041#128)
      0xFDB97530ECA864200000000000000000#128 false 0x2#4 false = true := by decide

/-- V75 of spec/95_test_vectors.md. -/
theorem test_shr_v75 :
    shows (ports 0x29#6 0x8123456789ABCDEFFEDCBA9876543210#128
        0x00000000000000000000000000000004#128)
      0x08123456789ABCDEFFEDCBA987654321#128 false 0x2#4 false = true := by decide

/-- V85 of spec/95_test_vectors.md. -/
theorem test_shr_v85 :
    shows (ports 0x29#6 0x80000000000000000000000000000000#128
        0x00000000000000000000000000000080#128)
      0x00000000000000000000000000000000#128 false 0x8#4 false = true := by decide

/-- V76 of spec/95_test_vectors.md. -/
theorem test_sar_v76 :
    shows (ports 0x2A#6 0x8123456789ABCDEFFEDCBA9876543210#128
        0x00000000000000000000000000000004#128)
      0xF8123456789ABCDEFFEDCBA987654321#128 false 0x2#4 false = true := by decide

/-- V87 of spec/95_test_vectors.md. -/
theorem test_sar_v87 :
    shows (ports 0x2A#6 0x80000000000000000000000000000000#128
        0x00000000000000000000000000000080#128)
      0xFFFFFFFFFFFFFFFFFFFFFFFFFFFFFFFF#128 false 0x8#4 false = true := by decide

/-- V100 of spec/95_test_vectors.md. -/
theorem test_cmp_v100 :
    shows (ports 0x30#6 0x80000000000000000000000000000000#128
        0x7FFFFFFFFFFFFFFFFFFFFFFFFFFFFFFF#128)
      0x00000000000000000000000000000008#128 false 0x8#4 false = true := by decide

/-- V101 of spec/95_test_vectors.md. -/
theorem test_cmp_v101 :
    shows (ports 0x30#6 0x7FFFFFFFFFFFFFFFFFFFFFFFFFFFFFFF#128
        0x80000000000000000000000000000000#128)
      0x0000000000000000000000000000000E#128 false 0xE#4 false = true := by decide

/-- V106 of spec/95_test_vectors.md. -/
theorem test_eq_v106 :
    shows (ports 0x31#6 0x00000000000000000000000000000001#128
        0x00000000000000000000000000000002#128)
      zero false 0x6#4 false = true := by decide

/-- V108 of spec/95_test_vectors.md. -/
theorem test_eq_v108 :
    shows (ports 0x31#6 0x8123456789ABCDEFFEDCBA9876543210#128
        0x8123456789ABCDEFFEDCBA9876543210#128)
      one false 0x1#4 false = true := by decide

/-- V110 of spec/95_test_vectors.md. -/
theorem test_ltu_v110 :
    shows (ports 0x32#6 0x80000000000000000000000000000000#128
        0x7FFFFFFFFFFFFFFFFFFFFFFFFFFFFFFF#128)
      zero false 0x8#4 false = true := by decide

/-- V111 of spec/95_test_vectors.md. -/
theorem test_ltu_v111 :
    shows (ports 0x32#6 0x7FFFFFFFFFFFFFFFFFFFFFFFFFFFFFFF#128
        0x80000000000000000000000000000000#128)
      one false 0xE#4 false = true := by decide

/-- V108 of spec/95_test_vectors.md. -/
theorem test_leu_v108 :
    shows (ports 0x33#6 0x8123456789ABCDEFFEDCBA9876543210#128
        0x8123456789ABCDEFFEDCBA9876543210#128)
      one false 0x1#4 false = true := by decide

/-- V110 of spec/95_test_vectors.md. -/
theorem test_leu_v110 :
    shows (ports 0x33#6 0x80000000000000000000000000000000#128
        0x7FFFFFFFFFFFFFFFFFFFFFFFFFFFFFFF#128)
      zero false 0x8#4 false = true := by decide

/-- V108 of spec/95_test_vectors.md. -/
theorem test_gtu_v108 :
    shows (ports 0x34#6 0x8123456789ABCDEFFEDCBA9876543210#128
        0x8123456789ABCDEFFEDCBA9876543210#128)
      zero false 0x1#4 false = true := by decide

/-- V110 of spec/95_test_vectors.md. -/
theorem test_gtu_v110 :
    shows (ports 0x34#6 0x80000000000000000000000000000000#128
        0x7FFFFFFFFFFFFFFFFFFFFFFFFFFFFFFF#128)
      one false 0x8#4 false = true := by decide

/-- V108 of spec/95_test_vectors.md. -/
theorem test_geu_v108 :
    shows (ports 0x35#6 0x8123456789ABCDEFFEDCBA9876543210#128
        0x8123456789ABCDEFFEDCBA9876543210#128)
      one false 0x1#4 false = true := by decide

/-- V111 of spec/95_test_vectors.md. -/
theorem test_geu_v111 :
    shows (ports 0x35#6 0x7FFFFFFFFFFFFFFFFFFFFFFFFFFFFFFF#128
        0x80000000000000000000000000000000#128)
      zero false 0xE#4 false = true := by decide

/-- V110 of spec/95_test_vectors.md. -/
theorem test_lts_v110 :
    shows (ports 0x3A#6 0x80000000000000000000000000000000#128
        0x7FFFFFFFFFFFFFFFFFFFFFFFFFFFFFFF#128)
      one false 0x8#4 false = true := by decide

/-- V111 of spec/95_test_vectors.md. -/
theorem test_lts_v111 :
    shows (ports 0x3A#6 0x7FFFFFFFFFFFFFFFFFFFFFFFFFFFFFFF#128
        0x80000000000000000000000000000000#128)
      zero false 0xE#4 false = true := by decide

/-- V108 of spec/95_test_vectors.md. -/
theorem test_les_v108 :
    shows (ports 0x3B#6 0x8123456789ABCDEFFEDCBA9876543210#128
        0x8123456789ABCDEFFEDCBA9876543210#128)
      one false 0x1#4 false = true := by decide

/-- V111 of spec/95_test_vectors.md. -/
theorem test_les_v111 :
    shows (ports 0x3B#6 0x7FFFFFFFFFFFFFFFFFFFFFFFFFFFFFFF#128
        0x80000000000000000000000000000000#128)
      zero false 0xE#4 false = true := by decide

/-- V108 of spec/95_test_vectors.md. -/
theorem test_gts_v108 :
    shows (ports 0x3C#6 0x8123456789ABCDEFFEDCBA9876543210#128
        0x8123456789ABCDEFFEDCBA9876543210#128)
      zero false 0x1#4 false = true := by decide

/-- V111 of spec/95_test_vectors.md. -/
theorem test_gts_v111 :
    shows (ports 0x3C#6 0x7FFFFFFFFFFFFFFFFFFFFFFFFFFFFFFF#128
        0x80000000000000000000000000000000#128)
      one false 0xE#4 false = true := by decide

/-- V108 of spec/95_test_vectors.md. -/
theorem test_ges_v108 :
    shows (ports 0x3D#6 0x8123456789ABCDEFFEDCBA9876543210#128
        0x8123456789ABCDEFFEDCBA9876543210#128)
      one false 0x1#4 false = true := by decide

/-- V110 of spec/95_test_vectors.md. -/
theorem test_ges_v110 :
    shows (ports 0x3D#6 0x80000000000000000000000000000000#128
        0x7FFFFFFFFFFFFFFFFFFFFFFFFFFFFFFF#128)
      zero false 0x8#4 false = true := by decide

/-- V116 of spec/95_test_vectors.md. -/
theorem test_reserved_v116 :
    shows (ports 0x03#6 0x00000000000000000000000000000005#128
        0x00000000000000000000000000000003#128)
      0x00000000000000000000000000000000#128 false 0x0#4 true = true := by decide

/-- V117 of spec/95_test_vectors.md. -/
theorem test_reserved_v117 :
    shows (ports 0x3F#6 0xFFFFFFFFFFFFFFFFFFFFFFFFFFFFFFFF#128
        0x00000000000000000000000000000001#128)
      0x00000000000000000000000000000000#128 false 0x2#4 true = true := by decide

/-! ### Witnesses: each meets all the hypotheses of the statement it is named after -/

/-- The ports after ADD of 1 and 2, as R100 and R160 give them. -/
def settledAdd : State :=
  { op := 0x10#6, a := 1#128, b := 2#128, y := 3#128, ovf := false, flags := 0b0110#4, ill := false, draws := 0 }

/-- The flags of 1 - 2 meet their contract. -/
theorem test_flags_contract : FlagsContract 1#128 2#128 0b0110#4 := by
  refine ⟨by decide, by decide, by decide, by decide⟩

/-- What ADD of 1 and 2 shows meets the contract. -/
theorem test_contract_add : Contract 0x10#6 1#128 2#128 settledAdd.outputs := by
  refine ⟨test_flags_contract, fun i h => ?_, fun h => absurd rfl (h .add)⟩
  cases i <;> first | exact absurd h (by decide) | exact ⟨rfl, rfl, by decide⟩

/-- The host before a sequence, with variable 0 holding what ADD of 1 and 2 shows. -/
def hostAtStart : SeqState := ⟨settledAdd, [(0, settledAdd.outputs)], 0, false⟩

theorem witness_EncodeInvertsDecode : ∀ i : Instr, encode i ≠ 0x03#6 := by
  intro i
  cases i <;> decide

theorem witness_StepRunsDecodedOperation :
    decodeOp (ports 0x00#6 5#128 7#128).op = .ok .zext64 ∧ decodeOp (ports 0x3D#6 5#128 7#128).op = .ok .ges := by
  exact ⟨rfl, rfl⟩

theorem witness_FetchWordRunsOperation : decodeTableWord 8 0x00 = some .zext64 ∧ decodeTableWord 8 0x3D = some .ges := by
  decide

theorem witness_ReservedCodesDriveIll :
    (ports 0x03#6 5#128 3#128).op.toNat ∈ reservedCodes ∧ (ports 0x3F#6 5#128 3#128).op.toNat ∈ reservedCodes ∧
      (ports 0x3D#6 5#128 3#128).op.toNat ∉ reservedCodes := by decide

theorem witness_StepIsIdempotent : step settledAdd = .next settledAdd := by rfl

theorem witness_OutputsDependOnInputsAlone :
    settledAdd.op = (ports 0x10#6 1#128 2#128).op ∧ settledAdd.a = (ports 0x10#6 1#128 2#128).a ∧
      settledAdd.b = (ports 0x10#6 1#128 2#128).b ∧ settledAdd.outputs ≠ (ports 0x10#6 1#128 2#128).outputs := by decide

theorem witness_StepKeepsSettled : step (ports 0x10#6 1#128 2#128) = .next settledAdd ∧ Settled settledAdd :=
  ⟨rfl, test_contract_add⟩

theorem witness_ContractFixesOutputs : ∃ o : Outputs, Contract 0x10#6 1#128 2#128 o := ⟨_, test_contract_add⟩

theorem witness_SamplingFollowsPropagationDelay : (3 ≤ 3 ∧ 0 ≤ 0) ∧ (2 < 3 ∧ 0 < 1) := by decide

theorem witness_AbsIsMagnitude :
    (ports 0x19#6 minSigned 0#128).a.getLsbD 127 = true ∧ (ports 0x19#6 maxSigned 0#128).a.getLsbD 127 = false := by decide

theorem witness_ShlShiftsLeft :
    128 ≤ (ports 0x28#6 1#128 128#128).b.toNat ∧ (ports 0x28#6 1#128 127#128).b.toNat < 128 ∧
      128 ≤ (ports 0x28#6 1#128 maxUnsigned).b.toNat := by decide

theorem witness_ShrShiftsRight :
    128 ≤ (ports 0x29#6 1#128 128#128).b.toNat ∧ (ports 0x29#6 1#128 127#128).b.toNat < 128 ∧
      (ports 0x29#6 1#128 0#128).b.toNat < 128 := by decide

theorem witness_SarShiftsRightWithSign :
    128 ≤ (ports 0x2A#6 minSigned 128#128).b.toNat ∧ (ports 0x2A#6 minSigned 127#128).b.toNat < 128 := by decide

theorem witness_AmountsPastWidthEmptyTheValue :
    (128 ≤ (ports 0x2A#6 minSigned 128#128).b.toNat ∧ (ports 0x2A#6 minSigned 128#128).a.getLsbD 127 = true) ∧
      128 ≤ (ports 0x2A#6 maxSigned maxUnsigned).b.toNat ∧ (ports 0x2A#6 maxSigned maxUnsigned).a.getLsbD 127 = false := by
  decide

theorem witness_EqualityAndUnsignedOrder :
    (ports 0x31#6 5#128 5#128).a = (ports 0x31#6 5#128 5#128).b ∧
      (ports 0x32#6 maxSigned minSigned).a.toNat < (ports 0x32#6 maxSigned minSigned).b.toNat ∧
      ¬(ports 0x32#6 minSigned maxSigned).a.toNat < (ports 0x32#6 minSigned maxSigned).b.toNat := by decide

theorem witness_SignedOrder :
    (ports 0x3A#6 minSigned maxSigned).a.toInt < (ports 0x3A#6 minSigned maxSigned).b.toInt ∧
      ¬(ports 0x3A#6 maxSigned minSigned).a.toInt < (ports 0x3A#6 maxSigned minSigned).b.toInt := by decide

theorem witness_OvfIsZeroForUncheckedOperations :
    ∀ i ∈ ([.zext64, .ges] : List Instr),
      i ∈ ([.zext64, .sext64, .sign, .mulw, .neg, .abs, .and, .or, .xor, .not, .shl, .shr, .sar, .cmp, .eq, .ltu, .leu,
        .gtu, .geu, .lts, .les, .gts, .ges] : List Instr) := by decide

theorem witness_IgnoredOperandBitsHaveNoEffect :
    (maxUnsigned.extractLsb' 0 64 = (0xFFFFFFFFFFFFFFFF#128).extractLsb' 0 64 ∧ maxUnsigned ≠ 0xFFFFFFFFFFFFFFFF#128) ∧
      maxUnsigned.getLsbD 127 = minSigned.getLsbD 127 ∧ maxUnsigned ≠ minSigned := by decide

theorem witness_ShlFromLimbs :
    (ports 0x28#6 1#128 0#128).b.toNat ≤ 127 ∧
      (ports 0x28#6 1#128 63#128).b.toNat ≤ 127 ∧
      (ports 0x28#6 1#128 64#128).b.toNat ≤ 127 ∧
      (ports 0x28#6 1#128 127#128).b.toNat ≤ 127 := by decide

theorem witness_ShrFromLimbs :
    (ports 0x29#6 1#128 0#128).b.toNat ≤ 127 ∧
      (ports 0x29#6 1#128 63#128).b.toNat ≤ 127 ∧
      (ports 0x29#6 1#128 64#128).b.toNat ≤ 127 ∧
      (ports 0x29#6 1#128 127#128).b.toNat ≤ 127 := by decide

theorem witness_SarFromLimbs :
    (ports 0x2A#6 minSigned 0#128).b.toNat ≤ 127 ∧
      (ports 0x2A#6 minSigned 63#128).b.toNat ≤ 127 ∧
      (ports 0x2A#6 minSigned 64#128).b.toNat ≤ 127 ∧
      (ports 0x2A#6 minSigned 127#128).b.toNat ≤ 127 := by decide

theorem witness_MulIsRepeatedAddition : (0xFFFFFFFFFFFFFFFF#128).toNat < 2 ^ 64 := by decide

theorem witness_ShiftLaws :
    (0xFFFFFFFFFFFFFFFF#128).extractLsb' 64 64 = 0#64 ∧ (127#128).toNat ≤ 127 ∧ 0 ≤ maxSigned.toInt ∧ 0 ≤ zero.toInt := by
  decide

theorem witness_HostImageKeepsValue : LimbOrder.loFirst ≠ LimbOrder.hiFirst := by decide

theorem witness_IllegalCodeFaultsTheHost :
    (hostAtStart.halted = false ∧
      ([⟨[], .raw 1 0x03#6 (.var 0) (.const 9#128)⟩] : List SeqLine)[hostAtStart.pos]? =
        some ⟨[], .raw 1 0x03#6 (.var 0) (.const 9#128)⟩ ∧
      operandValue hostAtStart.vars (.var 0) = .ok 3#128 ∧ operandValue hostAtStart.vars (.const 9#128) = .ok 9#128) ∧
      (0x03#6).toNat ∈ reservedCodes ∧ (0x02#6).toNat ∉ reservedCodes ∧
      ([⟨[], .raw 1 0x02#6 (.var 0) (.const 9#128)⟩] : List SeqLine)[hostAtStart.pos]? =
        some ⟨[], .raw 1 0x02#6 (.var 0) (.const 9#128)⟩ := by
  exact ⟨⟨rfl, rfl, rfl, rfl⟩, by decide, by decide, rfl⟩

theorem witness_HostStepAssignsOutputs :
    (hostAtStart.halted = false ∧
      ([⟨[], .eval 1 .neg (.var 0) none⟩] : List SeqLine)[hostAtStart.pos]? = some ⟨[], .eval 1 .neg (.var 0) none⟩ ∧
      operandCountFits .neg none = true ∧ operandValue hostAtStart.vars (.var 0) = .ok 3#128 ∧
      secondValue hostAtStart.vars none = .ok 0#128 ∧ Instr.neg.arity = 1) ∧
      ([⟨[], .eval 1 .sub (.var 0) (some (.var 0))⟩] : List SeqLine)[hostAtStart.pos]? =
        some ⟨[], .eval 1 .sub (.var 0) (some (.var 0))⟩ ∧
      operandCountFits .sub (some (.var 0)) = true ∧ secondValue hostAtStart.vars (some (.var 0)) = .ok 3#128 := by
  exact ⟨⟨rfl, rfl, rfl, rfl, rfl, rfl⟩, rfl, rfl, rfl⟩

theorem witness_HostSequenceKeepsInvariant :
    SeqInv hostAtStart ∧ ∃ h', seqStep [⟨[], .eval 1 .neg (.var 0) none⟩] hostAtStart = .next h' :=
  ⟨⟨by decide, test_contract_add⟩, _, rfl⟩

theorem witness_PseudoOperationsGiveTheirResults :
    operandValue hostAtStart.vars (.var 0) = .ok 3#128 ∧ operandValue hostAtStart.vars (.const maxUnsigned) = .ok maxUnsigned := by
  exact ⟨rfl, rfl⟩

end Sys2Proof.Tests
end

section
/-! PROOFS. The step is the evaluation function on the present inputs and changes the four outputs alone (R33, R35, R57). -/

namespace Sys2Proof.Machine

@[simp] theorem inputsHeld_drive (o : Outputs) (s : State) : InputsHeld s (s.drive o) := ⟨rfl, rfl, rfl, rfl⟩

/-- Every step is one evaluation of the present inputs: both arms of the decoder drive outputs that are functions of
`op`, `a` and `b`, and so does the same arm from the reset state, where `evaluate` reads it off. -/
theorem step_eq_drive_evaluate (s : State) : step s = .next (s.drive (evaluate s.op s.a s.b)) := by
  cases h : decodeOp s.op with
  | ok i =>
    obtain ⟨f, g, hfg⟩ := exec_drives i
    rw [evaluate, step_of_ok (s := s) h, step_of_ok (s := State.reset.present s.op s.a s.b) h, hfg, hfg]
    rfl
  | error e =>
    rw [evaluate, step_of_error (s := s) h, step_of_error (s := State.reset.present s.op s.a s.b) h]
    rfl

/-- Settles O9: the step drives the evaluation function of its inputs. -/
theorem stepIsTheEvaluationFunction : Obligations.StepIsTheEvaluationFunction := step_eq_drive_evaluate

/-- Settles O5: the next state is the old one with its outputs driven. -/
theorem stepAlwaysAnswersNext : Obligations.StepAlwaysAnswersNext := fun s =>
  ⟨_, step_eq_drive_evaluate s, inputsHeld_drive _ s⟩

/-- Settles O8: both steps drive the same value of the evaluation function. -/
theorem outputsDependOnInputsAlone : Obligations.OutputsDependOnInputsAlone := by
  intro s s' hop ha hb
  refine ⟨_, _, step_eq_drive_evaluate s, step_eq_drive_evaluate s', ?_⟩
  rw [outputs_drive, outputs_drive, hop, ha, hb]

/-- Settles O3: it is the decoder's first arm. -/
theorem stepRunsDecodedOperation : Obligations.StepRunsDecodedOperation := fun _ _ => step_of_ok

theorem completeUnchecked_ovf (y : Word) (s : State) : ∃ t, completeUnchecked y s = .next t ∧ t.ovf = false :=
  ⟨_, rfl, rfl⟩

/-- Settles O37: the meaning of each of the 23 is a `completeUnchecked`. -/
theorem ovfIsZeroForUncheckedOperations : Obligations.OvfIsZeroForUncheckedOperations := by
  intro i s hi
  fin_cases hi <;> exact completeUnchecked_ovf _ s

end Sys2Proof.Machine
end

section
/-! PROOFS. The flags and the result functions of the operations meet the contract, one lemma per function. -/

namespace Sys2Proof.Machine

theorem flagsOf_contract (a b : Word) : FlagsContract a b (flagsOf a b) := by
  refine ⟨equalFrom_iff a b, ?_, unsignedLessFrom_iff a b, ?_⟩
  · rw [← nOf, nOf_flagsOf, signFlag_iff]
  · rw [← vOf, vOf_flagsOf, overflowFlag_iff]

theorem bitResult_zextBit {c : Bool} {p : Prop} (h : c = true ↔ p) : BitResult (zextBit c) p := by
  rw [BitResult, zextBit_toNat, ← h]
  cases c <;> simp

theorem not_signedRange_iff (x : Int) : (!signedRange x) = true ↔ ¬(-2 ^ 127 ≤ x ∧ x ≤ 2 ^ 127 - 1) := by
  rw [← signedRange_iff, Bool.not_eq_true', Bool.not_eq_true]

theorem lo_toInt (v : Word) : (lo v).toInt = Int.bmod v.toNat (2 ^ 64) := by
  rw [BitVec.toInt_eq_toNat_bmod, lo_toNat, Int.natCast_emod, Int.emod_bmod]

theorem zext64Result_contract (a b : Word) : ResultContract .zext64 a b (zext64Result a) false :=
  ⟨(zextLimb_toNat _).trans (lo_toNat a), rfl⟩

theorem sext64Result_contract (a b : Word) : ResultContract .sext64 a b (sext64Result a) false :=
  ⟨(sextLimb_toInt _).trans (lo_toInt a), rfl⟩

theorem signResult_contract (a b : Word) : ResultContract .sign a b (signResult a) false := by
  have h : signBit a = true ↔ a.toInt < 0 := by
    rw [signBit_eq_msb, BitVec.msb_eq_toInt, decide_eq_true_iff]
  exact ⟨bitResult_zextBit h, rfl⟩

theorem mulwResult_contract (a b : Word) : ResultContract .mulw a b (mulwResult a b) false := by
  refine ⟨?_, rfl⟩
  rw [mulwResult_toNat, lo_toNat, lo_toNat]

theorem mulResult_contract (a b : Word) : ResultContract .mul a b (mulResult a b) (mulOverflow a b) := by
  refine ⟨?_, decide_eq_true_iff⟩
  rw [mulResult_eq, BitVec.toNat_mul]

theorem addResult_contract (a b : Word) : ResultContract .add a b (addResult a b) (addCarry a b) := by
  refine ⟨?_, decide_eq_true_iff⟩
  rw [addResult_eq, BitVec.toNat_add]

theorem subResult_contract (a b : Word) : ResultContract .sub a b (subResult a b) (subBorrow a b) :=
  ⟨trunc128_toNat _, decide_eq_true_iff⟩

theorem addResult_contract_signed (a b : Word) : ResultContract .adds a b (addResult a b) (addOverflow a b) := by
  refine ⟨?_, ?_⟩
  · rw [addResult_eq, BitVec.toInt_add]
  · rw [addOverflow, not_signedRange_iff, sval_eq_toInt, sval_eq_toInt]

theorem subResult_contract_signed (a b : Word) : ResultContract .subs a b (subResult a b) (subOverflow a b) := by
  refine ⟨?_, ?_⟩
  · rw [subResult_eq, BitVec.toInt_sub]
  · rw [subOverflow, not_signedRange_iff, sval_eq_toInt, sval_eq_toInt]

theorem sub64Result_contract (a b : Word) : ResultContract .sub64 a b (sub64Result a b) (sub64Borrow a b) := by
  rw [ResultContract, ← lo_toNat]
  exact ⟨trunc128_toNat _, decide_eq_true_iff⟩

theorem negResult_contract (a b : Word) : ResultContract .neg a b (negResult a) false := by
  refine ⟨?_, rfl⟩
  rw [negResult_eq, BitVec.toNat_neg]

theorem absResult_contract (a b : Word) : ResultContract .abs a b (absResult a) false := by
  refine ⟨?_, rfl⟩
  have ha := a.isLt
  rw [absResult_eq, ← BitVec.abs_eq, BitVec.toNat_abs, BitVec.toInt_eq_msb_cond]
  split <;> omega

theorem andResult_contract (a b : Word) : ResultContract .and a b (andResult a b) false :=
  ⟨fun _ _ => BitVec.getLsbD_and, rfl⟩

theorem orResult_contract (a b : Word) : ResultContract .or a b (orResult a b) false :=
  ⟨fun _ _ => BitVec.getLsbD_or, rfl⟩

theorem xorResult_contract (a b : Word) : ResultContract .xor a b (xorResult a b) false :=
  ⟨fun _ _ => BitVec.getLsbD_xor, rfl⟩

theorem notResult_contract (a b : Word) : ResultContract .not a b (notResult a) false :=
  ⟨fun k hk => by simp [notResult, hk], rfl⟩

theorem shlResult_contract (a b : Word) : ResultContract .shl a b (shlResult a (shiftAmount b)) false := by
  refine ⟨fun k hk => ?_, rfl⟩
  rw [shlResult_eq, BitVec.getLsbD_shiftLeft, decide_eq_true hk, Bool.true_and, ← decide_not]
  simp only [shiftAmount, uval, not_lt]

theorem shrResult_contract (a b : Word) : ResultContract .shr a b (shrResult a (shiftAmount b)) false := by
  refine ⟨fun k _ => ?_, rfl⟩
  rw [shrResult_eq, BitVec.getLsbD_ushiftRight, Nat.add_comm]
  rfl

theorem sarResult_contract (a b : Word) : ResultContract .sar a b (sarResult a (shiftAmount b)) false := by
  refine ⟨fun k hk => ?_, rfl⟩
  rw [sarResult_eq, BitVec.getLsbD_sshiftRight, Nat.add_comm, ← signBit_eq_msb]
  simp [hk, shiftAmount, uval, signBit]

theorem cmpResult_contract (a b : Word) : ResultContract .cmp a b (zextFlags (flagsOf a b)) false :=
  ⟨⟨flagsOf a b, flagsOf_contract a b, zextFlags_toNat _⟩, rfl⟩

end Sys2Proof.Machine
end

section
/-! PROOFS. Every operation completes with the result of its rule (R35), and so every step meets the contract. -/

namespace Sys2Proof.Machine

theorem completesWith_of_complete {i : Instr} {s : State} {y : Word} {ovf : Bool} {P : Word → Bool → Prop}
    (h : exec i s = complete y ovf s) (hP : P y ovf) : CompletesWith i s P :=
  ⟨_, h, hP, flagsOf_contract s.a s.b, rfl, inputsHeld_drive _ s⟩

/-- A predicate completes with the bit of the comparison that its exact form (R173) decides. -/
theorem completesWith_of_predicate {i : Instr} {s : State} {p : Prop} [Decidable p]
    (h : exec i s = completePredicate (decide p) s) : CompletesWith i s (fun y ovf => BitResult y p ∧ ovf = false) :=
  completesWith_of_complete h ⟨bitResult_zextBit decide_eq_true_iff, rfl⟩

/-- Every operation completes in every state with `y` and `ovf` as its rule says. -/
theorem exec_completesWith_contract (i : Instr) (s : State) : CompletesWith i s (ResultContract i s.a s.b) := by
  cases i with
  | zext64 => exact completesWith_of_complete rfl (zext64Result_contract s.a s.b)
  | sext64 => exact completesWith_of_complete rfl (sext64Result_contract s.a s.b)
  | sign => exact completesWith_of_complete rfl (signResult_contract s.a s.b)
  | mulw => exact completesWith_of_complete rfl (mulwResult_contract s.a s.b)
  | mul => exact completesWith_of_complete rfl (mulResult_contract s.a s.b)
  | add => exact completesWith_of_complete rfl (addResult_contract s.a s.b)
  | sub => exact completesWith_of_complete rfl (subResult_contract s.a s.b)
  | adds => exact completesWith_of_complete rfl (addResult_contract_signed s.a s.b)
  | subs => exact completesWith_of_complete rfl (subResult_contract_signed s.a s.b)
  | sub64 => exact completesWith_of_complete rfl (sub64Result_contract s.a s.b)
  | neg => exact completesWith_of_complete rfl (negResult_contract s.a s.b)
  | abs => exact completesWith_of_complete rfl (absResult_contract s.a s.b)
  | and => exact completesWith_of_complete rfl (andResult_contract s.a s.b)
  | or => exact completesWith_of_complete rfl (orResult_contract s.a s.b)
  | xor => exact completesWith_of_complete rfl (xorResult_contract s.a s.b)
  | not => exact completesWith_of_complete rfl (notResult_contract s.a s.b)
  | shl => exact completesWith_of_complete rfl (shlResult_contract s.a s.b)
  | shr => exact completesWith_of_complete rfl (shrResult_contract s.a s.b)
  | sar => exact completesWith_of_complete rfl (sarResult_contract s.a s.b)
  | cmp => exact completesWith_of_complete rfl (cmpResult_contract s.a s.b)
  | eq => exact completesWith_of_predicate (execEq_exact s)
  | ltu => exact completesWith_of_predicate (execLtu_exact s)
  | leu => exact completesWith_of_predicate (execLeu_exact s)
  | gtu => exact completesWith_of_predicate (execGtu_exact s)
  | geu => exact completesWith_of_predicate (execGeu_exact s)
  | lts => exact completesWith_of_predicate (execLts_exact s)
  | les => exact completesWith_of_predicate (execLes_exact s)
  | gts => exact completesWith_of_predicate (execGts_exact s)
  | ges => exact completesWith_of_predicate (execGes_exact s)

/-- An assigned code names one operation, so its clause of the contract is that operation's rule. -/
theorem contract_of_encode {i : Instr} {op : OpCode} {a b : Word} {o : Outputs} (hi : encode i = op)
    (hflags : FlagsContract a b o.flags) (hill : o.ill = false) (hres : ResultContract i a b o.y o.ovf) :
    Contract op a b o := by
  refine ⟨hflags, fun j hj => ?_, fun hnone => absurd hi (hnone i)⟩
  obtain rfl := encode_injective (hj.trans hi.symm)
  exact ⟨hill, hres⟩

/-- The outputs that `driveIllegal` drives are those of a reserved code (R66). -/
theorem contract_of_reserved {op : OpCode} (hnone : ∀ i, encode i ≠ op) (a b : Word) :
    Contract op a b ⟨zero, false, flagsOf a b, true⟩ :=
  ⟨flagsOf_contract a b, fun i hi => absurd hi (hnone i), fun _ => ⟨rfl, rfl, rfl⟩⟩

/-- Settles O10: an assigned code completes with its operation's contract, any other is driven as reserved. -/
theorem stepMeetsContract : Obligations.StepMeetsContract := by
  intro s
  obtain ⟨i, hi, hstep⟩ | ⟨hnone, hstep⟩ := step_cases s
  · obtain ⟨t, ht, hres, hflags, hill, hheld⟩ := exec_completesWith_contract i s
    exact ⟨t, hstep.trans ht, hheld, contract_of_encode hi hflags hill hres⟩
  · exact ⟨_, hstep, inputsHeld_drive _ s, contract_of_reserved hnone s.a s.b⟩

end Sys2Proof.Machine
end

section
/-! PROOFS. The contract leaves no output bit open (R38): each form in which it fixes an output fixes one value. -/

namespace Sys2Proof.Machine

theorem bool_unique {c d : Bool} {p : Prop} (hc : c = true ↔ p) (hd : d = true ↔ p) : c = d :=
  Bool.eq_iff_iff.mpr (hc.trans hd.symm)

theorem FlagsContract.unique {a b : Word} {f g : FlagBits} (hf : FlagsContract a b f) (hg : FlagsContract a b g) :
    f = g := by
  obtain ⟨hf0, hf1, hf2, hf3⟩ := hf
  obtain ⟨hg0, hg1, hg2, hg3⟩ := hg
  apply BitVec.eq_of_getLsbD_eq
  intro k hk
  interval_cases k
  · exact bool_unique hf0 hg0
  · exact bool_unique hf1 hg1
  · exact bool_unique hf2 hg2
  · exact bool_unique hf3 hg3

theorem BitResult.unique {y z : Word} {p : Prop} (hy : BitResult y p) (hz : BitResult z p) : y = z := by
  apply BitVec.eq_of_toNat_eq
  by_cases hp : p
  · rw [hy.1 hp, hz.1 hp]
  · rw [hy.2 hp, hz.2 hp]

/-- The rule of an operation fixes `y`: by its value, by its signed value, as a truth value, or bit by bit. -/
theorem ResultContract.y_unique {i : Instr} {a b y z : Word} {v w : Bool} (hy : ResultContract i a b y v)
    (hz : ResultContract i a b z w) : y = z := by
  cases i
  case zext64 | mulw | mul | add | neg | abs => exact BitVec.eq_of_toNat_eq (hy.1.trans hz.1.symm)
  case sub | sub64 => exact BitVec.eq_of_toNat_eq (Int.ofNat_inj.mp (hy.1.trans hz.1.symm))
  case sext64 | adds | subs => exact BitVec.eq_of_toInt_eq (hy.1.trans hz.1.symm)
  case and | or | xor | not | shl | shr | sar =>
    exact BitVec.eq_of_getLsbD_eq fun k hk => (hy.1 k hk).trans (hz.1 k hk).symm
  case cmp =>
    obtain ⟨⟨f, hf, hyf⟩, -⟩ := hy
    obtain ⟨⟨g, hg, hzg⟩, -⟩ := hz
    obtain rfl := hf.unique hg
    exact BitVec.eq_of_toNat_eq (hyf.trans hzg.symm)
  case sign | eq | ltu | leu | gtu | geu | lts | les | gts | ges => exact hy.1.unique hz.1

/-- The rule of an operation fixes `ovf`: by a condition on the operands, or as 0 (R36). -/
theorem ResultContract.ovf_unique {i : Instr} {a b y z : Word} {v w : Bool} (hy : ResultContract i a b y v)
    (hz : ResultContract i a b z w) : v = w := by
  cases i
  case mul | add | sub | adds | subs | sub64 => exact bool_unique hy.2 hz.2
  all_goals exact hy.2.trans hz.2.symm

theorem outputs_eq {o o' : Outputs} (hy : o.y = o'.y) (hovf : o.ovf = o'.ovf) (hflags : o.flags = o'.flags)
    (hill : o.ill = o'.ill) : o = o' := by
  cases o
  cases o'
  simp only [Outputs.mk.injEq]
  exact ⟨hy, hovf, hflags, hill⟩

theorem Contract.unique {op : OpCode} {a b : Word} {o o' : Outputs} (h : Contract op a b o)
    (h' : Contract op a b o') : o = o' := by
  obtain ⟨hflags, hassigned, hreserved⟩ := h
  obtain ⟨hflags', hassigned', hreserved'⟩ := h'
  by_cases hcode : ∃ i, encode i = op
  · obtain ⟨i, hi⟩ := hcode
    obtain ⟨hill, hres⟩ := hassigned i hi
    obtain ⟨hill', hres'⟩ := hassigned' i hi
    exact outputs_eq (hres.y_unique hres') (hres.ovf_unique hres') (hflags.unique hflags') (hill.trans hill'.symm)
  · obtain ⟨hy, hovf, hill⟩ := hreserved (not_exists.mp hcode)
    obtain ⟨hy', hovf', hill'⟩ := hreserved' (not_exists.mp hcode)
    exact outputs_eq (hy.trans hy'.symm) (hovf.trans hovf'.symm) (hflags.unique hflags') (hill.trans hill'.symm)

/-- Settles O13: two outputs that meet the contract of one code and operands are equal. -/
theorem contractFixesOutputs : Obligations.ContractFixesOutputs := fun _ _ _ _ _ => Contract.unique

end Sys2Proof.Machine
end

section
/-! PROOFS. An evaluation repeated has the effect of one (R57), and the host's image of a value under both limb orders
(R54). -/

namespace Sys2Proof.Machine

theorem eq_drive_evaluate_of_step {s t : State} (h : step s = .next t) : t = s.drive (evaluate s.op s.a s.b) := by
  rw [step_eq_drive_evaluate, Host.Outcome.next.injEq] at h
  exact h.symm

/-- Settles O7: a step holds the inputs, so the second step drives the same outputs over those of the first. -/
theorem stepIsIdempotent : Obligations.StepIsIdempotent := by
  intro s t h
  obtain rfl := eq_drive_evaluate_of_step h
  rw [step_eq_drive_evaluate, drive_op, drive_a, drive_b, drive_drive]

@[simp] theorem loadLimbs_storeLimbs_same (o : LimbOrder) (v : Word) : loadLimbs o (storeLimbs o v) = some v := by
  cases o with
  | loFirst => exact congrArg some (ofLimbs_hi_lo v)
  | hiFirst => exact congrArg some (ofLimbs_hi_lo v)

theorem loadLimbs_storeLimbs_of_ne {o o' : LimbOrder} (h : o ≠ o') (v : Word) :
    loadLimbs o' (storeLimbs o v) = some (ofLimbs (lo v) (hi v)) := by
  match o, o' with
  | .loFirst, .hiFirst => rfl
  | .hiFirst, .loFirst => rfl
  | .loFirst, .loFirst => exact absurd rfl h
  | .hiFirst, .hiFirst => exact absurd rfl h

/-- Settles O56: the same order joins the limbs as they were split, the other order joins them exchanged. -/
theorem hostImageKeepsValue : Obligations.HostImageKeepsValue := fun v =>
  ⟨fun o => loadLimbs_storeLimbs_same o v, fun _ _ h => loadLimbs_storeLimbs_of_ne h v⟩

end Sys2Proof.Machine
end

section
/-! PROOFS. A host sequence keeps the unit settled and its variables canonical (R69): what a line can do is said once, and
the invariant is derived from it. -/

namespace Sys2Proof.Machine

/-- After any evaluation the outputs are those of the present inputs (R221, R223). -/
theorem settled_of_step {s t : State} (h : step s = .next t) : Settled t := by
  obtain ⟨t', ht', ⟨hop, ha, hb, -⟩, hcontract⟩ := stepMeetsContract s
  obtain rfl := Host.Outcome.next.inj (h.symm.trans ht')
  rw [Settled, hop, ha, hb]
  exact hcontract

/-- The reset state is settled because its evaluation changes nothing. -/
theorem settled_reset : Settled State.reset := settled_of_step (s := State.reset) rfl

/-- The host after the triple `(op, a, b)`: the unit stands on it with its outputs driven, `dest` holds these outputs, and
the next line is due (R69). -/
def SeqState.assign (dest : Nat) (op : OpCode) (a b : Word) (h : SeqState) : SeqState :=
  { h with
    core := (h.core.present op a b).drive (evaluate op a b)
    vars := setVar dest (evaluate op a b) h.vars
    pos := h.pos + 1 }

section
variable (dest : Nat) (op : OpCode) (a b : Word) (h : SeqState)

@[simp] theorem assign_core : (h.assign dest op a b).core = (h.core.present op a b).drive (evaluate op a b) := rfl

@[simp] theorem assign_vars : (h.assign dest op a b).vars = setVar dest (evaluate op a b) h.vars := rfl

@[simp] theorem assign_pos : (h.assign dest op a b).pos = h.pos + 1 := rfl

@[simp] theorem assign_halted : (h.assign dest op a b).halted = h.halted := rfl

/-- Presenting a triple either faults on `ill = 1` (R202) or assigns the outputs of its evaluation (R69). -/
theorem runTriple_eq :
    runTriple dest op a b h =
      if (evaluate op a b).ill then .fault (.illegalOp op) else .next (h.assign dest op a b) := by
  rw [runTriple, step_eq_drive_evaluate]
  rfl

end

/-- What a line that answers a next state did: it assigned the outputs of an assigned code's evaluation, or it moved the
position or the halt bit alone. -/
def LineEffect (h h' : SeqState) : Prop :=
  (∃ dest op a b, (evaluate op a b).ill = false ∧ h' = h.assign dest op a b) ∨
    ∃ pos halted, h' = { h with pos := pos, halted := halted }

theorem lineEffect_of_runTriple {dest : Nat} {op : OpCode} {a b : Word} {h h' : SeqState}
    (hrun : runTriple dest op a b h = .next h') : LineEffect h h' := by
  rw [runTriple_eq] at hrun
  split at hrun
  case isTrue => cases hrun
  case isFalse hill =>
    exact .inl ⟨dest, op, a, b, Bool.eq_false_of_not_eq_true hill, (Host.Outcome.next.inj hrun).symm⟩

theorem lineEffect_of_runOperands {dest : Nat} {op : OpCode} {x : SeqOperand} {z : Option SeqOperand}
    {h h' : SeqState} (hrun : runOperands dest op x z h = .next h') : LineEffect h h' := by
  unfold runOperands at hrun
  split at hrun
  · cases hrun
  · split at hrun
    · cases hrun
    · exact lineEffect_of_runTriple hrun

theorem lineEffect_of_runBranch {prog : List SeqLine} {x : Nat} {field : SeqField} {same bit : Bool} {target : Nat}
    {h h' : SeqState} (hrun : runBranch prog x field same bit target h = .next h') : LineEffect h h' := by
  unfold runBranch at hrun
  split at hrun
  · cases hrun
  · split at hrun
    case isTrue =>
      split at hrun
      · exact .inr ⟨_, _, (Host.Outcome.next.inj hrun).symm⟩
      · cases hrun
    case isFalse => exact .inr ⟨_, _, (Host.Outcome.next.inj hrun).symm⟩

theorem lineEffect_of_runStmt {prog : List SeqLine} {st : SeqStmt} {h h' : SeqState}
    (hrun : runStmt prog h st = .next h') : LineEffect h h' := by
  cases st with
  | eval dest i x z =>
    rw [runStmt] at hrun
    split at hrun
    case isTrue => exact lineEffect_of_runOperands hrun
    case isFalse => cases hrun
  | raw dest op x z => exact lineEffect_of_runOperands hrun
  | branch x field same bit target => exact lineEffect_of_runBranch hrun
  | halt => exact .inr ⟨_, _, (Host.Outcome.next.inj hrun).symm⟩

/-- The inversion lemma of `seqStep`. -/
theorem lineEffect_of_seqStep {prog : List SeqLine} {h h' : SeqState} (hstep : seqStep prog h = .next h') :
    LineEffect h h' := by
  unfold seqStep at hstep
  split at hstep
  case isTrue => exact .inr ⟨_, _, (Host.Outcome.next.inj hstep).symm⟩
  case isFalse =>
    split at hstep
    · exact lineEffect_of_runStmt hstep
    · cases hstep

theorem seqInv_assign (dest : Nat) (op : OpCode) (a b : Word) {h : SeqState} (hinv : SeqInv h) :
    SeqInv (h.assign dest op a b) :=
  ⟨setVar_wf _ _ hinv.1, settled_of_step (step_eq_drive_evaluate (h.core.present op a b))⟩

theorem seqInv_of_lineEffect {h h' : SeqState} (hinv : SeqInv h) (heffect : LineEffect h h') : SeqInv h' := by
  obtain ⟨dest, op, a, b, -, rfl⟩ | ⟨pos, halted, rfl⟩ := heffect
  · exact seqInv_assign dest op a b hinv
  · exact hinv

theorem seqInv_seqStart (given : List (Nat × Word)) : SeqInv (seqStart given) := ⟨seqStart_wf given, settled_reset⟩

/-- Settles O59: an assignment keeps the canonical form and leaves the unit just evaluated; any other line touches
neither. -/
theorem hostSequenceKeepsInvariant : Obligations.HostSequenceKeepsInvariant :=
  ⟨seqInv_seqStart, fun _ _ _ hinv hstep => seqInv_of_lineEffect hinv (lineEffect_of_seqStep hstep)⟩

end Sys2Proof.Machine
end

section
/-! PROOFS. The operation table (R61, R65, R66): the decoder is the encoder's inverse and refuses the 35 reserved codes;
and a presented word runs its operation (R59). -/

namespace Sys2Proof.Machine

theorem decodeOp_eq_ok_iff (op : OpCode) (i : Instr) : decodeOp op = .ok i ↔ encode i = op := by
  constructor
  · exact encode_of_decodeOp
  · rintro rfl
    exact decodeOp_encode i

theorem decodeOp_of_unassigned {op : OpCode} (hnone : ∀ i, encode i ≠ op) : decodeOp op = .error (.reserved op) := by
  cases hdec : decodeOp op with
  | ok i => exact absurd (encode_of_decodeOp hdec) (hnone i)
  | error e => rw [decodeOp_error hdec]

/-- Settles O2: the code of an operation decodes to it, and a code that decodes is that operation's. -/
theorem encodeInvertsDecode : Obligations.EncodeInvertsDecode :=
  ⟨decodeOp_eq_ok_iff, fun _ => decodeOp_of_unassigned⟩

/-- The list of R66 is the complement of the table, checked at each of the 64 codes. -/
theorem decodeOp_reserved_iff : ∀ op : OpCode, decodeOp op = .error (.reserved op) ↔ op.toNat ∈ reservedCodes := by
  decide

/-- Settles O1: each row is the round trip of its operation's code, and the other codes are those of R66. -/
theorem operationTableDecodes : Obligations.OperationTableDecodes :=
  ⟨⟨decodeOp_encode .zext64, decodeOp_encode .sext64, decodeOp_encode .sign, decodeOp_encode .mulw,
    decodeOp_encode .mul, decodeOp_encode .add, decodeOp_encode .sub, decodeOp_encode .adds, decodeOp_encode .subs,
    decodeOp_encode .sub64, decodeOp_encode .neg, decodeOp_encode .abs, decodeOp_encode .and, decodeOp_encode .or,
    decodeOp_encode .xor, decodeOp_encode .not, decodeOp_encode .shl, decodeOp_encode .shr, decodeOp_encode .sar,
    decodeOp_encode .cmp, decodeOp_encode .eq, decodeOp_encode .ltu, decodeOp_encode .leu, decodeOp_encode .gtu,
    decodeOp_encode .geu, decodeOp_encode .lts, decodeOp_encode .les, decodeOp_encode .gts, decodeOp_encode .ges⟩,
    decodeOp_reserved_iff⟩

/-- A number that decodes fits the port, and its low six bits decode to the same operation. -/
theorem decodeOp_of_decodeNat {w : Nat} {i : Instr} (h : decodeNat w = .ok i) : decodeOp (BitVec.ofNat 6 w) = .ok i := by
  unfold decodeNat at h
  split at h
  case isTrue => exact h
  case isFalse => cases h

theorem decodeNat_of_decodeTableWord {nbits w : Nat} {i : Instr} (h : decodeTableWord nbits w = some i) :
    decodeNat (w % 2 ^ nbits) = .ok i := by
  unfold decodeTableWord at h
  split at h
  case h_1 j hj => rw [hj, Option.some.inj h]
  case h_2 => cases h

/-- The presented code is the word's operation. -/
theorem decodeOp_withFetchWord {nbits w : Nat} {i : Instr} (s : State) (h : decodeTableWord nbits w = some i) :
    decodeOp (s.withFetchWord nbits w).op = .ok i :=
  decodeOp_of_decodeNat (decodeNat_of_decodeTableWord h)

/-- Settles O4: the presented code decodes to the word's operation, and presenting it keeps the other fields. -/
theorem fetchWordRunsOperation : Obligations.FetchWordRunsOperation := by
  intro s i w h
  have hop := decodeOp_withFetchWord s h
  exact ⟨step_of_ok hop, (encode_of_decodeOp hop).symm, rfl, rfl, rfl, rfl⟩

end Sys2Proof.Machine
end

section
/-! PROOFS. The operand bits that R63 marks "ignored": the result functions of these operations take only the bits read. -/

namespace Sys2Proof.Machine

theorem sameResult_zext64 {a a' : Word} (b b' : Word) (h : lo a = lo a') : SameResult 0x00#6 a b a' b' := by
  simp only [SameResult, evaluate_zext64, zext64Result, h, and_self]

theorem sameResult_sext64 {a a' : Word} (b b' : Word) (h : lo a = lo a') : SameResult 0x01#6 a b a' b' := by
  simp only [SameResult, evaluate_sext64, sext64Result, h, and_self]

theorem sameResult_sign {a a' : Word} (b b' : Word) (h : signBit a = signBit a') : SameResult 0x02#6 a b a' b' := by
  simp only [SameResult, evaluate_sign, signResult, h, and_self]

theorem sameResult_mulw {a a' b b' : Word} (ha : lo a = lo a') (hb : lo b = lo b') : SameResult 0x08#6 a b a' b' := by
  simp only [SameResult, evaluate_mulw, mulwResult, ha, hb, and_self]

theorem sameResult_sub64 (a : Word) {b b' : Word} (h : lo b = lo b') : SameResult 0x14#6 a b a b' := by
  simp only [SameResult, evaluate_sub64, sub64Result, sub64Borrow, h, and_self]

theorem sameResult_neg (a b b' : Word) : SameResult 0x18#6 a b a b' := by
  simp only [SameResult, evaluate_neg, and_self]

theorem sameResult_abs (a b b' : Word) : SameResult 0x19#6 a b a b' := by
  simp only [SameResult, evaluate_abs, and_self]

theorem sameResult_not (a b b' : Word) : SameResult 0x23#6 a b a b' := by
  simp only [SameResult, evaluate_not, and_self]

/-- Settles O38: one row of R63 after another. -/
theorem ignoredOperandBitsHaveNoEffect : Obligations.IgnoredOperandBitsHaveNoEffect := fun a _ b b' =>
  ⟨fun h => ⟨sameResult_zext64 b b' h, sameResult_sext64 b b' h⟩, sameResult_sign b b', sameResult_mulw,
    sameResult_sub64 a, sameResult_neg a b b', sameResult_abs a b b', sameResult_not a b b'⟩

end Sys2Proof.Machine
end

section
/-! PROOFS. A line of a host sequence that names an operation assigns its evaluation (R69, R71), and so the expansions of
the pseudo-operations leave their results (R70). -/

namespace Sys2Proof.Machine

theorem evaluate_encode_ill (i : Instr) (a b : Word) : (evaluate (encode i) a b).ill = false := by
  obtain ⟨f, g, hfg⟩ := exec_drives i
  rw [evaluate_encode, hfg]
  rfl

/-- The code of an operation is no reserved one, so its triple always assigns. -/
theorem runTriple_encode (dest : Nat) (i : Instr) (a b : Word) (h : SeqState) :
    runTriple dest (encode i) a b h = .next (h.assign dest (encode i) a b) := by
  rw [runTriple_eq, evaluate_encode_ill]
  rfl

theorem runStmt_eval (prog : List SeqLine) (dest : Nat) {i : Instr} {x : SeqOperand} {z : Option SeqOperand} {a b : Word}
    {h : SeqState} (hcount : operandCountFits i z = true) (hx : operandValue h.vars x = .ok a)
    (hz : secondValue h.vars z = .ok b) :
    runStmt prog h (.eval dest i x z) = .next (h.assign dest (encode i) a b) := by
  simp only [runStmt, hcount, if_true, runOperands, hx, hz, runTriple_encode]

theorem seqStep_of_line {prog : List SeqLine} {h : SeqState} {line : SeqLine} (hrunning : h.halted = false)
    (hline : prog[h.pos]? = some line) : seqStep prog h = runStmt prog h line.stmt := by
  simp [seqStep, hrunning, hline]

/-- A unary operation names one operand, and the host drives `b = 0` (R69). -/
theorem secondValue_of_unary {i : Instr} {z : Option SeqOperand} {vars : List (Nat × Outputs)} {b : Word}
    (hcount : operandCountFits i z = true) (hunary : i.arity = 1) (hz : secondValue vars z = .ok b) : b = zero := by
  cases z with
  | none => exact (Except.ok.inj hz).symm
  | some z => simp [operandCountFits, hunary] at hcount

/-- Settles O58: the line assigns its evaluation, and an assignment is read at its destination alone. -/
theorem hostStepAssignsOutputs : Obligations.HostStepAssignsOutputs := by
  intro prog h labels dest i x z a b hrunning hline hcount hx hz
  have hstep := (seqStep_of_line hrunning hline).trans (runStmt_eval prog dest hcount hx hz)
  exact ⟨_, hstep, rfl, hrunning, rfl, rfl, rfl, rfl, getVar_setVar_same .., fun hunary => secondValue_of_unary hcount hunary hz,
    fun _ hne => getVar_setVar_other _ _ hne⟩

theorem runStmts_eval (dest : Nat) {i : Instr} {x : SeqOperand} {z : Option SeqOperand} {a b : Word} {h : SeqState}
    {rest : List SeqStmt} (hcount : operandCountFits i z = true) (hx : operandValue h.vars x = .ok a)
    (hz : secondValue h.vars z = .ok b) :
    runStmts (.eval dest i x z :: rest) h = runStmts rest (h.assign dest (encode i) a b) := by
  rw [runStmts, runStmt_eval [] dest hcount hx hz]

/-- An expansion whose last step assigns the destination leaves that step's `y`. -/
theorem pseudoGives_of_assign {dest : Nat} {p : Pseudo} {op : OpCode} {a b : Word} {h h' : SeqState} {o : Outputs}
    {P : Word → Prop} (hrun : runStmts (expandPseudo dest p) h = .next (h'.assign dest op a b))
    (ho : evaluate op a b = o) (hP : P o.y) : PseudoGives dest p h P := by
  subst ho
  exact ⟨_, _, hrun, getVar_setVar_same .., hP⟩

/-- A pseudo-operation that stands for one step leaves that step's `y`. -/
theorem pseudoGives_of_eval {dest : Nat} {p : Pseudo} {i : Instr} {x : SeqOperand} {z : Option SeqOperand} {a b : Word}
    {h : SeqState} {o : Outputs} {P : Word → Prop} (hp : expandPseudo dest p = [.eval dest i x z])
    (hcount : operandCountFits i z = true) (hx : operandValue h.vars x = .ok a) (hz : secondValue h.vars z = .ok b)
    (ho : evaluate (encode i) a b = o) (hP : P o.y) : PseudoGives dest p h P := by
  refine pseudoGives_of_assign (h' := h) ?_ ho hP
  rw [hp, runStmts_eval dest hcount hx hz, runStmts]

theorem operandValue_assign_same {dest : Nat} {op : OpCode} {a b : Word} {o : Outputs} (h : SeqState)
    (ho : evaluate op a b = o) : operandValue (h.assign dest op a b).vars (.var dest) = .ok o.y := by
  simp [operandValue, ho]

theorem xorResult_zextBit_one (c : Bool) : xorResult (zextBit c) one = zextBit (!c) := by
  cases c <;> rfl

theorem lo_zextLimb (l : Limb) : lo (zextLimb l) = l := by
  apply BitVec.eq_of_toNat_eq
  rw [lo_toNat, zextLimb_toNat, Nat.mod_eq_of_lt l.isLt]

/-- NE is EQ with its result inverted: XOR with ONE exchanges ZERO and ONE. -/
theorem pseudoGives_ne (dest : Nat) {x z : SeqOperand} {a b : Word} {h : SeqState} (hx : operandValue h.vars x = .ok a)
    (hz : operandValue h.vars z = .ok b) : PseudoGives dest (.ne x z) h (fun y => BitResult y (a ≠ b)) := by
  have hread : operandValue (h.assign dest (encode .eq) a b).vars (.var dest) =
      .ok (zextBit (equalFrom (flagsOf a b))) := operandValue_assign_same h (evaluate_eq a b)
  have hrun : runStmts (expandPseudo dest (.ne x z)) h = .next ((h.assign dest (encode .eq) a b).assign dest
      (encode .xor) (zextBit (equalFrom (flagsOf a b))) one) :=
    (runStmts_eval dest (z := some z) rfl hx hz).trans (runStmts_eval dest rfl hread rfl)
  have hne : (!equalFrom (flagsOf a b)) = true ↔ a ≠ b := by
    rw [Bool.not_eq_true', ← Bool.not_eq_true, equalFrom_iff]
  refine pseudoGives_of_assign hrun (evaluate_xor _ one) ?_
  rw [xorResult_zextBit_one]
  exact bitResult_zextBit hne

/-- Settles O60: nine expansions are one step each, whose evaluation is known, and NE is two. -/
theorem pseudoOperationsGiveTheirResults : Obligations.PseudoOperationsGiveTheirResults := by
  intro h dest x z a b hx hz
  refine ⟨?addw, ?subw, ?mull, ?mov, ?clr, ?trunc64, pseudoGives_ne dest hx hz, ?lsl, ?lsr, ?asr⟩
  case addw => exact pseudoGives_of_eval rfl rfl hx hz (evaluate_add a b) (addResult_contract a b).1
  case subw => exact pseudoGives_of_eval rfl rfl hx hz (evaluate_sub a b) (subResult_contract a b).1
  case mull => exact pseudoGives_of_eval rfl rfl hx hz (evaluate_mul a b) (mulResult_contract a b).1
  case mov => exact pseudoGives_of_eval rfl rfl hx hx (evaluate_or a a) BitVec.or_self
  case clr => exact pseudoGives_of_eval rfl rfl rfl rfl (evaluate_xor zero zero) BitVec.xor_self
  case trunc64 => exact pseudoGives_of_eval rfl rfl hx rfl (evaluate_zext64 a zero) (lo_zextLimb (lo a))
  case lsl => exact pseudoGives_of_eval rfl rfl hx hz rfl rfl
  case lsr => exact pseudoGives_of_eval rfl rfl hx hz rfl rfl
  case asr => exact pseudoGives_of_eval rfl rfl hx hz rfl rfl

end Sys2Proof.Machine
end

section
/-! PROOFS. The conversions (R80, R81, R82): an extended limb is the word of the limb and its fill (R12), and SIGN is the
zero-extended bit 127. -/

namespace Sys2Proof.Machine

theorem zextLimb_eq_ofLimbs (x : Limb) : zextLimb x = ofLimbs 0#64 x := BitVec.setWidth_eq_append (by decide)

theorem sextLimb_eq_ofLimbs (x : Limb) : sextLimb x = ofLimbs (if x.msb then u64Max else 0#64) x :=
  BitVec.signExtend_eq_append_of_le (by decide)

@[simp] theorem hi_zextLimb (x : Limb) : hi (zextLimb x) = 0#64 := by
  rw [zextLimb_eq_ofLimbs, hi_ofLimbs]

@[simp] theorem lo_sextLimb (x : Limb) : lo (sextLimb x) = x := by
  rw [sextLimb_eq_ofLimbs, lo_ofLimbs]

@[simp] theorem hi_sextLimb (x : Limb) : hi (sextLimb x) = if x.msb then u64Max else 0#64 := by
  rw [sextLimb_eq_ofLimbs, hi_ofLimbs]

/-- The sign of the low limb is bit 63 of the word. -/
theorem lo_msb (v : Word) : (lo v).msb = v.getLsbD 63 := by
  simp [lo, BitVec.msb_eq_getLsbD_last]

theorem hi_sext64Result (a : Word) : hi (sext64Result a) = if a.getLsbD 63 then u64Max else 0#64 := by
  rw [sext64Result, hi_sextLimb, lo_msb]

/-- Settles O17: the result is the low limb under a zero high limb. -/
theorem zext64WidensUnsigned : Obligations.Zext64WidensUnsigned := by
  refine ⟨rfl, fun s => completesWith_of_complete rfl ?_⟩
  obtain ⟨hvalue, hovf⟩ := zext64Result_contract s.a s.b
  exact ⟨hvalue, lo_zextLimb (lo s.a), hi_zextLimb (lo s.a), hovf⟩

/-- Settles O18: the result is the low limb under a high limb filled with its sign. -/
theorem sext64WidensSigned : Obligations.Sext64WidensSigned :=
  ⟨rfl, fun s => completesWith_of_complete rfl
    ⟨sextLimb_toInt (lo s.a), lo_sextLimb (lo s.a), hi_sext64Result s.a, rfl⟩⟩

/-- Settles O19: the result is bit 127 zero-extended, which is set exactly for a negative value. -/
theorem signDetectsNegative : Obligations.SignDetectsNegative := by
  refine ⟨rfl, fun s => completesWith_of_complete rfl ?_⟩
  obtain ⟨hbit, hovf⟩ := signResult_contract s.a s.b
  exact ⟨zextBit_toNat (signBit s.a), hbit, hovf⟩

end Sys2Proof.Machine
end

section
/-! PROOFS. MULW and MUL as exact products (R90, R93), MUL read as signed (R95), and the properties of R97. -/

namespace Sys2Proof.Machine

/-- Settles O20: it is MULW's clause of the contract. -/
theorem mulwIsExactProduct : Obligations.MulwIsExactProduct := ⟨rfl, exec_completesWith_contract .mulw⟩

/-- Settles O21: it is MUL's clause of the contract. -/
theorem mulIsProductWithOverflow : Obligations.MulIsProductWithOverflow := ⟨rfl, exec_completesWith_contract .mul⟩

theorem mulResult_toInt (a b : Word) : (mulResult a b).toInt = Int.bmod (a.toInt * b.toInt) (2 ^ 128) := by
  rw [mulResult_eq, BitVec.toInt_mul]

/-- Settles O50: the wrapped product is the same for both readings of the operands. -/
theorem mulReadsSigned : Obligations.MulReadsSigned := fun s => ⟨_, rfl, mulResult_toInt s.a s.b⟩

/-- `n` chained ADDs of `a` to ZERO make the wrapped multiple (R97 (a)). -/
theorem addResult_iterate_zero (a : Word) (n : Nat) :
    (fun acc => addResult acc a)^[n] 0#128 = a * BitVec.ofNat 128 n := by
  induction n with
  | zero => exact BitVec.mul_zero.symm
  | succ n ih => rw [Function.iterate_succ_apply', ih, addResult_eq, BitVec.ofNat_add, BitVec.mul_add, BitVec.mul_one]

theorem lo_toNat_of_lt {v : Word} (h : v.toNat < 2 ^ 64) : (lo v).toNat = v.toNat := by
  rw [lo_toNat, Nat.mod_eq_of_lt h]

theorem mulResult_eq_mulwResult {a b : Word} (ha : a.toNat < 2 ^ 64) (hb : b.toNat < 2 ^ 64) :
    mulResult a b = mulwResult a b := by
  rw [mulResult, mulwResult, lo_toNat_of_lt ha, lo_toNat_of_lt hb, uval, uval]

theorem mulOverflow_eq_false {a b : Word} (ha : a.toNat < 2 ^ 64) (hb : b.toNat < 2 ^ 64) :
    mulOverflow a b = false := by
  have h : a.toNat * b.toNat < 2 ^ 64 * 2 ^ 64 := Nat.mul_lt_mul'' ha hb
  exact decide_eq_false (Nat.not_le.mpr h)

/-- Settles O51: the chain is the multiple of `a` by `u(b)`, and an operand of 64 bits is its own low limb. -/
theorem mulIsRepeatedAddition : Obligations.MulIsRepeatedAddition := by
  refine ⟨fun a b => ?chain, fun a b ha hb => ?narrow⟩
  case chain =>
    simp only [evaluate_mul, evaluate_add, addResult_iterate_zero, mulResult_eq, BitVec.ofNat_toNat, BitVec.setWidth_eq]
  case narrow =>
    rw [evaluate_mul, evaluate_mulw]
    exact ⟨mulResult_eq_mulwResult ha hb, mulOverflow_eq_false ha hb⟩

end Sys2Proof.Machine
end

section
/-! PROOFS. The source's multiplier structures are exact: the 32-bit partial products (R91) and the limb algorithm (R94).
Each product is expanded once over the digits of its operands; the carries that the structure propagates are then linear
arithmetic over the digit products. -/

namespace Sys2Proof.Machine

theorem half_mul_lt (u v : Half) : u.toNat * v.toNat < 2 ^ 64 := (Nat.mul_lt_mul'' u.isLt v.isLt).trans_eq (by decide)

theorem midSum_lt (x z : Limb) : midSum x z < 3 * 2 ^ 32 := by
  have h00 : p00 x z < 2 ^ 64 := half_mul_lt _ _
  unfold midSum
  omega

theorem limb_toNat_halves (x : Limb) : x.toNat = (hiHalf x).toNat * 2 ^ 32 + (loHalf x).toNat := by
  rw [hiHalf_toNat, loHalf_toNat]
  omega

/-- `x·z = p11·2^64 + (p10 + p01)·2^32 + p00` (R91). -/
theorem limb_mul_eq (x z : Limb) :
    x.toNat * z.toNat = p11 x z * 2 ^ 64 + (p10 x z + p01 x z) * 2 ^ 32 + p00 x z := by
  rw [limb_toNat_halves x, limb_toNat_halves z, p11, p10, p01, p00]
  ring

/-- The carries of R91 lose nothing: the high sum and the two low digits are the exact product. -/
theorem highSum_digits (x z : Limb) :
    highSum x z * 2 ^ 64 + (midSum x z % 2 ^ 32 * 2 ^ 32 + p00 x z % 2 ^ 32) = x.toNat * z.toNat := by
  rw [limb_mul_eq]
  unfold highSum midSum
  omega

theorem limb_mul_lt (x z : Limb) : x.toNat * z.toNat < 2 ^ 64 * 2 ^ 64 := Nat.mul_lt_mul'' x.isLt z.isLt

theorem highSum_lt (x z : Limb) : highSum x z < 2 ^ 64 := by
  have hdigits := highSum_digits x z
  have hproduct := limb_mul_lt x z
  omega

theorem trunc64_natCast_toNat (n : Nat) : (trunc64 n).toNat = n % 2 ^ 64 := by
  rw [trunc64_natCast, BitVec.toNat_ofNat]

theorem mulwLimbs_toNat (x z : Limb) : (mulwLimbs x z).toNat = x.toNat * z.toNat := by
  rw [mulwLimbs, ofLimbs_toNat, ofHalves_toNat, trunc64_natCast_toNat, Nat.mod_eq_of_lt (highSum_lt x z),
    BitVec.toNat_ofNat, BitVec.toNat_ofNat, highSum_digits]

theorem mulwLimbs_lo_lo (a b : Word) : mulwLimbs (lo a) (lo b) = mulwResult a b :=
  BitVec.eq_of_toNat_eq ((mulwLimbs_toNat _ _).trans (mulwResult_toNat a b).symm)

theorem execMulw_eq_limbs (s : State) : exec .mulw s = .next (driveResult (mulwLimbs (lo s.a) (lo s.b)) false s) := by
  rw [mulwLimbs_lo_lo]
  rfl

/-- Settles O39: the carries of the structure are exact and none of its parts overflows. -/
theorem mulwFromPartialProducts : Obligations.MulwFromPartialProducts := fun s =>
  ⟨execMulw_eq_limbs s, fun x z => ⟨half_mul_lt _ _, half_mul_lt _ _, half_mul_lt _ _, half_mul_lt _ _, midSum_lt x z,
    highSum_lt x z, mulwLimbs_toNat x z⟩⟩

/-- `u(a)·u(b) = a.hi·b.hi·2^128 + (c1 + c2)·2^64 + L`, with `L` the product of the low limbs (R94). -/
theorem word_mul_eq (a b : Word) :
    a.toNat * b.toNat =
      (hi a).toNat * (hi b).toNat * 2 ^ 128 + (cross1 a b + cross2 a b) * 2 ^ 64 + (lo a).toNat * (lo b).toNat := by
  rw [word_toNat_limbs a, word_toNat_limbs b, cross1, cross2]
  ring

theorem mulHighSum_eq (a b : Word) :
    mulHighSum a b = (lo a).toNat * (lo b).toNat / 2 ^ 64 + cross1 a b % 2 ^ 64 + cross2 a b % 2 ^ 64 := by
  rw [mulHighSum, hi_toNat, mulwLimbs_toNat]

theorem mulLimbs_y (a b : Word) : (mulLimbs a b).1 = mulResult a b := by
  apply BitVec.eq_of_toNat_eq
  rw [mulResult_eq, BitVec.toNat_mul, word_mul_eq, mulLimbs, ofLimbs_toNat, trunc64_natCast_toNat, lo_toNat,
    mulwLimbs_toNat, mulHighSum_eq]
  omega

theorem hi_eq_zero_iff (v : Word) : hi v = 0 ↔ (hi v).toNat = 0 := BitVec.toNat_eq

/-- The overflow tests of R94 decide whether the product fits: two nonzero high limbs alone reach `2^128`, and where one
of them is zero its cross term vanishes, so that the high limb's sum is the other cross term and the low product. -/
theorem mulLimbs_ovf_iff (a b : Word) : (mulLimbs a b).2 = true ↔ 2 ^ 128 ≤ a.toNat * b.toNat := by
  have hlow := limb_mul_lt (lo a) (lo b)
  simp only [mulLimbs, Bool.or_eq_true, Bool.and_eq_true, decide_eq_true_eq, ne_eq, hi_eq_zero_iff, mulHighSum_eq, word_mul_eq]
  by_cases ha : (hi a).toNat = 0
  · have hc1 : cross1 a b = 0 := by rw [cross1, ha, Nat.zero_mul]
    simp only [ha, hc1, not_true_eq_false, false_and, or_false]
    omega
  by_cases hb : (hi b).toNat = 0
  · have hc2 : cross2 a b = 0 := by rw [cross2, hb, Nat.mul_zero]
    simp only [hb, hc2, not_true_eq_false, and_false, or_false]
    omega
  · have hhigh : 0 < (hi a).toNat * (hi b).toNat := Nat.mul_pos (Nat.pos_of_ne_zero ha) (Nat.pos_of_ne_zero hb)
    omega

theorem mulLimbs_ovf (a b : Word) : (mulLimbs a b).2 = mulOverflow a b :=
  bool_unique (mulLimbs_ovf_iff a b) decide_eq_true_iff

/-- Settles O40: the limb algorithm's `y` and `ovf` are those of the exact product. -/
theorem mulFromLimbs : Obligations.MulFromLimbs := by
  intro s
  rw [mulLimbs_y, mulLimbs_ovf]
  rfl

end Sys2Proof.Machine
end

section
/-! PROOFS. ADD, SUB, ADDS, SUBS and SUB64 as exact integers (R100, R102, R104, R105, R106). SUB64 is SUB of the
zero-extended low limb, and its other forms follow from SUB's. -/

namespace Sys2Proof.Machine

theorem addResult_toNat (a b : Word) : (addResult a b).toNat = (a.toNat + b.toNat) % 2 ^ 128 :=
  (addResult_contract a b).1

theorem subResult_toNat (a b : Word) : ((subResult a b).toNat : Int) = ((a.toNat : Int) - b.toNat) % 2 ^ 128 :=
  (subResult_contract a b).1

theorem sub64Result_eq_subResult (a b : Word) : sub64Result a b = subResult a (zextLimb (lo b)) := by
  rw [sub64Result_eq, subResult_eq]

theorem sub64Borrow_eq_subBorrow (a b : Word) : sub64Borrow a b = subBorrow a (zextLimb (lo b)) := by
  rw [sub64Borrow, subBorrow, uval, uval, zextLimb_toNat]

/-- Settles O22: it is ADD's clause of the contract. -/
theorem addIsSumWithCarry : Obligations.AddIsSumWithCarry := ⟨rfl, exec_completesWith_contract .add⟩

/-- Settles O23: it is SUB's clause of the contract, and the flag C is the borrow of the same subtraction. -/
theorem subIsDifferenceWithBorrow : Obligations.SubIsDifferenceWithBorrow :=
  ⟨rfl, fun s => ⟨exec_completesWith_contract .sub s, _, rfl, cOf_flagsOf s.a s.b⟩⟩

/-- Settles O24: the bits are ADD's, and they are the wrapped sum for the signed reading too. -/
theorem addsIsSumWithSignedOverflow : Obligations.AddsIsSumWithSignedOverflow := by
  refine ⟨rfl, fun s => completesWith_of_complete rfl ?_⟩
  exact ⟨addResult_toNat s.a s.b, addResult_contract_signed s.a s.b⟩

/-- Settles O25: the bits are SUB's, and they are the wrapped difference for the signed reading too. -/
theorem subsIsDifferenceWithSignedOverflow : Obligations.SubsIsDifferenceWithSignedOverflow := by
  refine ⟨rfl, fun s => completesWith_of_complete rfl ?_⟩
  exact ⟨subResult_toNat s.a s.b, subResult_contract_signed s.a s.b⟩

/-- Settles O26: it is SUB64's clause of the contract, and SUB of the zero-extended low limb drives the same result. -/
theorem sub64SubtractsLowLimb : Obligations.Sub64SubtractsLowLimb := by
  refine ⟨rfl, fun s => completesWith_of_complete rfl ?_⟩
  obtain ⟨hvalue, hborrow⟩ := sub64Result_contract s.a s.b
  rw [evaluate_sub]
  exact ⟨hvalue, hborrow, sub64Result_eq_subResult s.a s.b, sub64Borrow_eq_subBorrow s.a s.b⟩

end Sys2Proof.Machine
end

section
/-! PROOFS. The two-digit adder and subtractors (R101, R103, R107). Each drives the limbs of one exact integer: its high
digit counts the carry or borrow of the low one, and overflows exactly when the whole does. -/

namespace Sys2Proof.Machine

/-- Narrowing the two digits narrows the integer they make up, where the low digit's overflow is dropped. -/
theorem ofLimbs_trunc64 (h l : Int) : ofLimbs (trunc64 h) (trunc64 l) = trunc128 (h * 2 ^ 64 + l % 2 ^ 64) := by
  apply BitVec.eq_of_toNat_eq
  have hh := trunc64_toNat h
  have hl := trunc64_toNat l
  have hword := trunc128_toNat (h * 2 ^ 64 + l % 2 ^ 64)
  rw [ofLimbs_toNat]
  omega

/-- The carry out of the low digit makes the high digit's sum complete. -/
theorem carry_digits (h : Nat) {l : Nat} (hl : l < 2 * 2 ^ 64) :
    (h + (decide (2 ^ 64 ≤ l)).toNat) * 2 ^ 64 + l % 2 ^ 64 = h * 2 ^ 64 + l := by
  rw [Bool.toNat, Bool.cond_decide]
  split <;> omega

/-- The borrow of the low digit makes the high digit's difference complete. -/
theorem borrow_digits (h : Int) {l : Int} (hlow : -2 ^ 64 ≤ l) (hhigh : l < 2 ^ 64) :
    (h - (decide (l < 0)).toNat) * 2 ^ 64 + l % 2 ^ 64 = h * 2 ^ 64 + l := by
  rw [Bool.toNat, Bool.cond_decide]
  split <;> omega

/-- The digits of R101 make up the exact sum `S`. -/
theorem add_digits (a b : Word) :
    ((hi a).toNat + (hi b).toNat + (decide (2 ^ 64 ≤ (lo a).toNat + (lo b).toNat)).toNat) * 2 ^ 64 +
      ((lo a).toNat + (lo b).toNat) % 2 ^ 64 = a.toNat + b.toNat := by
  have ha := (lo a).isLt
  have hb := (lo b).isLt
  rw [carry_digits _ (by omega), word_toNat_limbs a, word_toNat_limbs b]
  ring

theorem addLimbs_eq (a b : Word) : addLimbs a b = (addResult a b, addCarry a b) := by
  have hdigits := add_digits a b
  apply Prod.ext
  case fst =>
    simp only [addLimbs, ofLimbs_trunc64, addResult, uval]
    rw [← Int.natCast_add a.toNat, ← hdigits]
    norm_cast
  case snd =>
    refine bool_unique (p := 2 ^ 128 ≤ a.toNat + b.toNat) ?_ decide_eq_true_iff
    rw [addLimbs, decide_eq_true_iff]
    omega

/-- The digits of R103 make up the exact difference. -/
theorem sub_digits (a b : Word) :
    (((hi a).toNat : Int) - (hi b).toNat - (decide (((lo a).toNat : Int) - (lo b).toNat < 0)).toNat) * 2 ^ 64 +
      (((lo a).toNat : Int) - (lo b).toNat) % 2 ^ 64 = (a.toNat : Int) - b.toNat := by
  have ha := (lo a).isLt
  have hb := (lo b).isLt
  rw [borrow_digits _ (by omega) (by omega), word_toNat_limbs a, word_toNat_limbs b]
  push_cast
  ring

theorem subLimbs_eq (a b : Word) : subLimbs a b = (subResult a b, subBorrow a b) := by
  have hdigits := sub_digits a b
  apply Prod.ext
  case fst => simp only [subLimbs, ofLimbs_trunc64, hdigits, subResult, uval]
  case snd =>
    refine bool_unique (p := a.toNat < b.toNat) ?_ decide_eq_true_iff
    rw [subLimbs, decide_eq_true_iff]
    omega

/-- The fast path is the subtractor with the high limb of the subtrahend zero. -/
theorem sub64Limbs_eq_subLimbs (a b : Word) : sub64Limbs a b = subLimbs a (zextLimb (lo b)) := by
  simp only [sub64Limbs, subLimbs, lo_zextLimb, hi_zextLimb, BitVec.toNat_zero, Nat.cast_zero, sub_zero]

theorem sub64Limbs_eq (a b : Word) : sub64Limbs a b = (sub64Result a b, sub64Borrow a b) := by
  rw [sub64Limbs_eq_subLimbs, subLimbs_eq, sub64Result_eq_subResult, sub64Borrow_eq_subBorrow]

/-- Settles O41: the adder's digits make up the exact sum. -/
theorem addFromLimbs : Obligations.AddFromLimbs := by
  intro s
  rw [addLimbs_eq]
  rfl

/-- Settles O42: the subtractor's digits make up the exact difference. -/
theorem subFromLimbs : Obligations.SubFromLimbs := by
  intro s
  rw [subLimbs_eq]
  rfl

/-- Settles O43: the fast path is the subtractor on the zero-extended low limb, as SUB64 is SUB of it. -/
theorem sub64FromLimbs : Obligations.Sub64FromLimbs := by
  intro s
  rw [sub64Limbs_eq]
  rfl

end Sys2Proof.Machine
end

section
/-! PROOFS. Signed overflow from the sign bits (R104, R105), and how the operations agree (R108, R109). -/

namespace Sys2Proof.Machine

/-- SUBS overflows exactly when the flag V of `a - b` is set: both are the exact test (R105, R160). -/
theorem subOverflow_eq_overflowFlag (a b : Word) : subOverflow a b = overflowFlag a b :=
  bool_unique (subResult_contract_signed a b).2 (overflowFlag_iff a b)

theorem overflowFlag_eq_signs (a b : Word) :
    overflowFlag a b = (decide (signBit a ≠ signBit b) && decide (signBit (subResult a b) ≠ signBit a)) := by
  have hy : difference a b = subResult a b := rfl
  rw [overflowFlag, hy, Bool.eq_iff_iff]
  simp only [Bool.and_eq_true, bne_iff_ne, decide_eq_true_eq]

theorem addOverflow_eq_saddOverflow (a b : Word) : addOverflow a b = a.saddOverflow b := by
  refine bool_unique (addResult_contract_signed a b).2 ?_
  simp only [BitVec.saddOverflow, Bool.or_eq_true, decide_eq_true_eq]
  omega

/-- The library's bit form of signed overflow, in the words of R104. -/
theorem addOverflow_eq_signs (a b : Word) :
    addOverflow a b = (decide (signBit a = signBit b) && decide (signBit (addResult a b) ≠ signBit a)) := by
  rw [addOverflow_eq_saddOverflow, BitVec.saddOverflow_eq, addResult_eq, Bool.eq_iff_iff]
  simp only [signBit_eq_msb, Bool.and_eq_true, beq_iff_eq, Bool.not_eq_true', beq_eq_false_iff_ne, decide_eq_true_eq]

/-- Settles O49: both bit forms are read off the sign bits, and V is SUBS's overflow. -/
theorem signedOverflowBitForms : Obligations.SignedOverflowBitForms := by
  refine fun s => ⟨⟨_, rfl, addOverflow_eq_signs s.a s.b⟩, _, rfl, ?flag, ?signs⟩
  case flag => exact (subOverflow_eq_overflowFlag s.a s.b).trans (vOf_flagsOf s.a s.b).symm
  case signs => exact (subOverflow_eq_overflowFlag s.a s.b).trans (overflowFlag_eq_signs s.a s.b)

theorem addResult_comm (a b : Word) : addResult a b = addResult b a := by
  rw [addResult_eq, addResult_eq, BitVec.add_comm]

theorem addCarry_comm (a b : Word) : addCarry a b = addCarry b a := by
  rw [addCarry, addCarry, Nat.add_comm]

theorem addResult_subResult (a b : Word) : addResult (subResult a b) b = a := by
  rw [addResult_eq, subResult_eq, BitVec.sub_add_cancel]

/-- Adding `b` back to the wrapped difference wraps exactly when the subtraction did. -/
theorem addCarry_subResult (a b : Word) : addCarry (subResult a b) b = subBorrow a b := by
  refine bool_unique (p := a.toNat < b.toNat) ?_ (subResult_contract a b).2
  have hdiff := subResult_toNat a b
  have ha := a.isLt
  have hb := b.isLt
  rw [addCarry, decide_eq_true_iff, uval, uval]
  omega

/-- Settles O53: each clause is a law of the result functions that the evaluations show. -/
theorem addAndSubAgree : Obligations.AddAndSubAgree := by
  intro a b
  simp only [evaluate_add, evaluate_sub, evaluate_adds, evaluate_subs]
  exact ⟨trivial, trivial, addResult_comm a b, addCarry_comm a b, (addCarry_subResult a b).symm, addResult_subResult a b⟩

end Sys2Proof.Machine
end

section
/-! PROOFS. NEG and ABS (R120, R121, R122). NEG's three forms are one residue modulo `2^128`, and ABS is NEG or the
operand by bit 127. -/

namespace Sys2Proof.Machine

/-- The form of R120 that narrows the complement. -/
theorem negResult_toNat_not (a : Word) : (negResult a).toNat = ((~~~a).toNat + 1) % 2 ^ 128 :=
  Int.ofNat_inj.mp (trunc128_toNat _)

/-- The form of R120 that narrows the negated signed value. -/
theorem negResult_eq_trunc128_neg (a : Word) : negResult a = trunc128 (-a.toInt) := by
  rw [negResult_eq, trunc128, BitVec.ofInt_neg, BitVec.ofInt_toInt]

theorem negResult_toNat_signed (a : Word) : ((negResult a).toNat : Int) = -a.toInt % 2 ^ 128 := by
  rw [negResult_eq_trunc128_neg, trunc128_toNat]

/-- Settles O27: the complement's form is the definition, the unsigned form is NEG's clause of the contract. -/
theorem negIsTwosComplement : Obligations.NegIsTwosComplement := by
  refine ⟨rfl, fun s => completesWith_of_complete rfl ?_⟩
  obtain ⟨hvalue, hovf⟩ := negResult_contract s.a s.b
  exact ⟨negResult_toNat_not s.a, hvalue, negResult_toNat_signed s.a, hovf⟩

theorem absResult_of_signBit {a : Word} (h : signBit a = true) : absResult a = negResult a := if_pos h

theorem absResult_of_not_signBit {a : Word} (h : signBit a = false) : absResult a = a :=
  if_neg (ne_true_of_eq_false h)

/-- Settles O28: the magnitude is ABS's clause of the contract, and bit 127 selects NEG's result or the operand. -/
theorem absIsMagnitude : Obligations.AbsIsMagnitude := by
  refine ⟨rfl, fun s => completesWith_of_complete rfl ?_⟩
  obtain ⟨hvalue, hovf⟩ := absResult_contract s.a s.b
  refine ⟨hvalue, fun hneg => ?negative, absResult_of_not_signBit, hovf⟩
  case negative => rw [absResult_of_signBit hneg, negResult_toNat_not]

theorem negResult_negResult (a : Word) : negResult (negResult a) = a := by
  rw [negResult_eq, negResult_eq, BitVec.neg_neg]

/-- Settles O52: NEG's result does not read `b`, and negation is its own inverse. -/
theorem negIsInvolution : Obligations.NegIsInvolution := by
  intro a b b'
  rw [evaluate_neg, evaluate_neg]
  exact negResult_negResult a

end Sys2Proof.Machine
end

section
/-! PROOFS. AND, OR, XOR and NOT (R130 to R133): their clauses of the contract are the rules bit by bit. -/

namespace Sys2Proof.Machine

/-- Settles O29: each operation completes with its clause of the contract, which states the output at every bit. -/
theorem logicIsBitwise : Obligations.LogicIsBitwise := by
  refine ⟨⟨rfl, rfl, rfl, rfl⟩, fun s => ⟨?and, ?or, ?xor, ?not⟩⟩
  case and => exact exec_completesWith_contract .and s
  case or => exact exec_completesWith_contract .or s
  case xor => exact exec_completesWith_contract .xor s
  case not => exact exec_completesWith_contract .not s

end Sys2Proof.Machine
end

section
/-! PROOFS. SHL, SHR and SAR as numbers and as bits (R144, R146, R148), and the amounts past the width (R143). SAR is
SHR with the vacated bits filled where the sign is set. -/

namespace Sys2Proof.Machine

/-- The bits that a right shift by `n` vacates. -/
def vacatedBits (n : Nat) : Word := ~~~(BitVec.allOnes 128 >>> n)

theorem getLsbD_vacatedBits (n : Nat) {k : Nat} (hk : k < 128) :
    (vacatedBits n).getLsbD k = decide (128 ≤ n + k) := by
  rw [vacatedBits, BitVec.getLsbD_not, BitVec.getLsbD_ushiftRight, BitVec.getLsbD_allOnes, decide_eq_true hk,
    Bool.true_and, ← decide_not]
  simp only [not_lt]

/-- The amount alone decides past the width: nothing of the operand is left. -/
theorem shlResult_of_le (a : Word) {n : Nat} (h : 128 ≤ n) : shlResult a n = zero := if_pos h

theorem shrResult_of_le (a : Word) {n : Nat} (h : 128 ≤ n) : shrResult a n = zero := if_pos h

theorem sarResult_of_le (a : Word) {n : Nat} (h : 128 ≤ n) :
    sarResult a n = if signBit a then maxUnsigned else zero := if_pos h

theorem shlResult_toNat (a : Word) (n : Nat) : (shlResult a n).toNat = a.toNat * 2 ^ n % 2 ^ 128 := by
  rw [shlResult_eq, BitVec.toNat_shiftLeft, Nat.shiftLeft_eq]

theorem shrResult_toNat (a : Word) (n : Nat) : (shrResult a n).toNat = a.toNat / 2 ^ n := by
  rw [shrResult_eq, BitVec.toNat_ushiftRight, Nat.shiftRight_eq_div_pow]

theorem sarResult_toInt (a : Word) (n : Nat) : (sarResult a n).toInt = a.toInt / (2 ^ n : Nat) := by
  rw [sarResult_eq, BitVec.toInt_sshiftRight, Int.shiftRight_eq_div_pow]

/-- Copies of the sign fill the vacated high bits (R148). -/
theorem sarResult_eq_shrResult_or (a : Word) (n : Nat) :
    sarResult a n = shrResult a n ||| if signBit a then vacatedBits n else 0#128 := by
  rw [sarResult_eq, shrResult_eq]
  apply BitVec.eq_of_getLsbD_eq
  intro k hk
  rw [BitVec.getLsbD_sshiftRight, BitVec.getLsbD_or, BitVec.getLsbD_ushiftRight, ← signBit_eq_msb,
    decide_eq_false hk.not_ge]
  by_cases hin : n + k < 128
  case pos =>
    have hkept : (vacatedBits n).getLsbD k = false := by
      rw [getLsbD_vacatedBits n hk, decide_eq_false hin.not_ge]
    cases signBit a <;> simp [hin, hkept]
  case neg =>
    have hvacated : (vacatedBits n).getLsbD k = true := by
      rw [getLsbD_vacatedBits n hk, decide_eq_true (not_lt.mp hin)]
    have hpast : a.getLsbD (n + k) = false := BitVec.getLsbD_of_ge a (n + k) (not_lt.mp hin)
    cases signBit a <;> simp [hin, hvacated, hpast]

theorem sarResult_of_not_signBit {a : Word} (n : Nat) (h : signBit a = false) : sarResult a n = shrResult a n := by
  simp [sarResult_eq_shrResult_or, h]

/-- Settles O30: past the width the result is zero, below it the truncated product, and its bits are SHL's clause of the
contract. -/
theorem shlShiftsLeft : Obligations.ShlShiftsLeft := by
  refine ⟨rfl, fun s => completesWith_of_complete rfl ⟨fun h => ?_, fun _ => ?_, shlResult_contract s.a s.b⟩⟩
  · exact congrArg BitVec.toNat (shlResult_of_le s.a h)
  · exact shlResult_toNat s.a s.b.toNat

/-- Settles O31: past the width the result is zero, below it the quotient, and its bits are SHR's clause of the
contract. -/
theorem shrShiftsRight : Obligations.ShrShiftsRight := by
  refine ⟨rfl, fun s => completesWith_of_complete rfl ⟨fun h => ?_, fun _ => ?_, shrResult_contract s.a s.b⟩⟩
  · exact congrArg BitVec.toNat (shrResult_of_le s.a h)
  · exact shrResult_toNat s.a s.b.toNat

/-- Settles O32: past the width every bit is the sign, below it the result is the floor, which is SHR with the vacated
bits filled; its bits are SAR's clause of the contract. -/
theorem sarShiftsRightWithSign : Obligations.SarShiftsRightWithSign := by
  refine ⟨rfl, fun s => completesWith_of_complete rfl ⟨fun h => ?_, fun _ => ⟨?_, ?_⟩, sarResult_contract s.a s.b⟩⟩
  · exact sarResult_of_le s.a h
  · exact sarResult_toInt s.a s.b.toNat
  · rw [← shrResult_eq]
    exact sarResult_eq_shrResult_or s.a s.b.toNat

/-- Settles O33: the operations complete with their values past the width. -/
theorem amountsPastWidthEmptyTheValue : Obligations.AmountsPastWidthEmptyTheValue := by
  intro s h
  refine ⟨⟨_, rfl, shlResult_of_le s.a h, rfl⟩, ⟨_, rfl, shrResult_of_le s.a h, rfl⟩, _, rfl, rfl, fun hneg => ?_,
    fun hpos => ?_⟩
  · exact (sarResult_of_le s.a h).trans (if_pos hneg)
  · exact (sarResult_of_le s.a h).trans (if_neg (ne_true_of_eq_false hpos))

end Sys2Proof.Machine
end

section
/-! PROOFS. The limbs of a shifted word, and so the limb forms of the shifts (R145, R147, R149) and the laws of R150. With a limb
shift by 64 or more giving 0 (R13) the forms agree with the operations past their range of 0 to 127 too, so the bound is
not used. -/

namespace Sys2Proof.Machine

/-- A limb shift by 64 or more is the library's, which gives 0 there too (R13). -/
theorem limbShl_eq (x : Limb) (k : Nat) : limbShl x k = x <<< k := by
  rw [limbShl, ite_eq_right_iff]
  exact fun h => (BitVec.shiftLeft_eq_zero h).symm

theorem limbShr_eq (x : Limb) (k : Nat) : limbShr x k = x >>> k := by
  rw [limbShr, ite_eq_right_iff]
  exact fun h => (BitVec.ushiftRight_eq_zero h).symm

/-- `fill(k)` has ones in bits `63..k` (R149): `~((1 << k) - 1) = -(1 << k)`, which is all ones shifted. -/
theorem signFill_eq (k : Nat) : signFill k = BitVec.allOnes 64 <<< k := by
  have hnot : ~~~(1#64 <<< k - 1#64) = -(1#64 <<< k) := by
    rw [BitVec.not_sub_one_eq_not_add_one, BitVec.neg_eq_not_add]
  calc signFill k = ~~~(1#64 <<< k - 1#64) := by rw [signFill, limbShl_eq]; rfl
    _ = (-1#64) <<< k := by rw [hnot, BitVec.shiftLeft_neg]
    _ = BitVec.allOnes 64 <<< k := by rw [BitVec.neg_one_eq_allOnes]

theorem getLsbD_signFill (k : Nat) {j : Nat} (hj : j < 64) : (signFill k).getLsbD j = decide (k ≤ j) := by
  have hj' : j - k < 64 := by omega
  rw [signFill_eq, BitVec.getLsbD_shiftLeft, BitVec.getLsbD_allOnes, decide_eq_true hj, decide_eq_true hj',
    Bool.true_and, Bool.and_true, ← decide_not]
  simp only [not_lt]

theorem getLsbD_lo (v : Word) (k : Nat) : (lo v).getLsbD k = (decide (k < 64) && v.getLsbD k) := by
  rw [lo, BitVec.getLsbD_extractLsb', Nat.zero_add]

theorem getLsbD_hi (v : Word) (k : Nat) : (hi v).getLsbD k = (decide (k < 64) && v.getLsbD (64 + k)) :=
  BitVec.getLsbD_extractLsb' ..

theorem lo_eq_of_getLsbD {v : Word} {x : Limb} (h : ∀ k < 64, v.getLsbD k = x.getLsbD k) : lo v = x := by
  apply BitVec.eq_of_getLsbD_eq
  intro k hk
  rw [getLsbD_lo, decide_eq_true hk, Bool.true_and, h k hk]

theorem hi_eq_of_getLsbD {v : Word} {x : Limb} (h : ∀ k < 64, v.getLsbD (64 + k) = x.getLsbD k) : hi v = x := by
  apply BitVec.eq_of_getLsbD_eq
  intro k hk
  rw [getLsbD_hi, decide_eq_true hk, Bool.true_and, h k hk]

/-- A word is made from its limbs. -/
theorem ofLimbs_eq_of {h l : Limb} {v : Word} (hh : hi v = h) (hl : lo v = l) : ofLimbs h l = v := by
  rw [← hh, ← hl, ofLimbs_hi_lo]

theorem lo_or (v w : Word) : lo (v ||| w) = lo v ||| lo w := BitVec.extractLsb'_or

theorem hi_or (v w : Word) : hi (v ||| w) = hi v ||| hi w := BitVec.extractLsb'_or

theorem ofLimbs_or (h l h' l' : Limb) : ofLimbs (h ||| h') (l ||| l') = ofLimbs h l ||| ofLimbs h' l' := by
  apply ofLimbs_eq_of
  · rw [hi_or, hi_ofLimbs, hi_ofLimbs]
  · rw [lo_or, lo_ofLimbs, lo_ofLimbs]

theorem lo_shiftLeft (a : Word) (n : Nat) : lo (a <<< n) = lo a <<< n := by
  refine lo_eq_of_getLsbD fun k hk => ?_
  by_cases hkn : k < n
  case pos => simp [hkn]
  case neg => grind [getLsbD_lo]

theorem lo_shiftLeft_of_ge (a : Word) {n : Nat} (hn : 64 ≤ n) : lo (a <<< n) = 0#64 := by
  rw [lo_shiftLeft, BitVec.shiftLeft_eq_zero hn]

/-- Below a limb's width the low `n` bits of the high limb come from the low one. -/
theorem hi_shiftLeft_of_lt (a : Word) {n : Nat} (hn : n < 64) :
    hi (a <<< n) = hi a <<< n ||| lo a >>> (64 - n) := by
  refine hi_eq_of_getLsbD fun k hk => ?_
  by_cases hkn : k < n
  case pos => grind [getLsbD_lo]
  case neg => grind [getLsbD_hi]

/-- From a limb's width on the high limb is the low one shifted by the rest. -/
theorem hi_shiftLeft_of_ge (a : Word) {n : Nat} (hn : 64 ≤ n) : hi (a <<< n) = lo a <<< (n - 64) := by
  refine hi_eq_of_getLsbD fun k hk => ?_
  by_cases hkn : k < n - 64
  case pos => grind
  case neg => grind [getLsbD_lo]

theorem hi_ushiftRight (a : Word) (n : Nat) : hi (a >>> n) = hi a >>> n := by
  refine hi_eq_of_getLsbD fun k hk => ?_
  by_cases hkn : n + k < 64
  case pos => grind [getLsbD_hi]
  case neg => grind

theorem hi_ushiftRight_of_ge (a : Word) {n : Nat} (hn : 64 ≤ n) : hi (a >>> n) = 0#64 := by
  rw [hi_ushiftRight, BitVec.ushiftRight_eq_zero hn]

/-- Below a limb's width the high `n` bits of the low limb come from the high one. -/
theorem lo_ushiftRight_of_lt (a : Word) {n : Nat} (hn : n < 64) :
    lo (a >>> n) = lo a >>> n ||| hi a <<< (64 - n) := by
  refine lo_eq_of_getLsbD fun k hk => ?_
  by_cases hkn : n + k < 64
  case pos => grind [getLsbD_lo]
  case neg => grind [getLsbD_hi]

/-- From a limb's width on the low limb is the high one shifted by the rest. -/
theorem lo_ushiftRight_of_ge (a : Word) {n : Nat} (hn : 64 ≤ n) : lo (a >>> n) = hi a >>> (n - 64) := by
  refine lo_eq_of_getLsbD fun k hk => ?_
  have hplace : n + k = 64 + (n - 64 + k) := by omega
  grind [getLsbD_hi]

/-- Below a limb's width the vacated bits lie in the high limb. -/
theorem ofLimbs_vacatedBits_of_lt {n : Nat} (hn : n < 64) : ofLimbs (signFill (64 - n)) 0#64 = vacatedBits n := by
  refine ofLimbs_eq_of (hi_eq_of_getLsbD fun k hk => ?_) (lo_eq_of_getLsbD fun k hk => ?_)
  · rw [getLsbD_vacatedBits n (by omega), getLsbD_signFill _ hk, decide_eq_decide]
    omega
  · rw [getLsbD_vacatedBits n (by omega), BitVec.getLsbD_zero, decide_eq_false_iff_not]
    omega

/-- From a limb's width on they fill the high limb and the top of the low one. -/
theorem ofLimbs_vacatedBits_of_ge {n : Nat} (hn : 64 ≤ n) :
    ofLimbs 0xFFFFFFFFFFFFFFFF#64 (signFill (128 - n)) = vacatedBits n := by
  refine ofLimbs_eq_of (hi_eq_of_getLsbD fun k hk => ?_) (lo_eq_of_getLsbD fun k hk => ?_)
  · have hones : 0xFFFFFFFFFFFFFFFF#64 = BitVec.allOnes 64 := rfl
    rw [getLsbD_vacatedBits n (by omega), hones, BitVec.getLsbD_allOnes, decide_eq_decide]
    omega
  · rw [getLsbD_vacatedBits n (by omega), getLsbD_signFill _ hk, decide_eq_decide]
    omega

/-- The limb form of SHL is the shift, at the edge `n = 64` too (R145). -/
theorem shlLimbs_eq (a : Word) (n : Nat) : shlLimbs a n = shlResult a n := by
  rw [shlResult_eq, shlLimbs]
  simp only [limbShl_eq, limbShr_eq]
  split
  case isTrue hn => exact ofLimbs_eq_of (hi_shiftLeft_of_lt a hn) (lo_shiftLeft a n)
  case isFalse hn => exact ofLimbs_eq_of (hi_shiftLeft_of_ge a (not_lt.mp hn)) (lo_shiftLeft_of_ge a (not_lt.mp hn))

/-- The limb form of SHR is the shift, at the edge `n = 64` too (R147). -/
theorem shrLimbs_eq (a : Word) (n : Nat) : shrLimbs a n = shrResult a n := by
  rw [shrResult_eq, shrLimbs]
  simp only [limbShl_eq, limbShr_eq]
  split
  case isTrue hn => exact ofLimbs_eq_of (hi_ushiftRight a n) (lo_ushiftRight_of_lt a hn)
  case isFalse hn =>
    exact ofLimbs_eq_of (hi_ushiftRight_of_ge a (not_lt.mp hn)) (lo_ushiftRight_of_ge a (not_lt.mp hn))

/-- The limb form of SAR is that of SHR with the fill of the vacated bits, where the sign is set (R149). -/
theorem sarLimbs_eq_shrLimbs_or (a : Word) (n : Nat) :
    sarLimbs a n = shrLimbs a n ||| if signBit a then vacatedBits n else 0#128 := by
  rw [sarLimbs, shrLimbs]
  cases signBit a
  case false => simp
  case true =>
    split
    case isTrue hn => simp [← ofLimbs_vacatedBits_of_lt hn, ← ofLimbs_or]
    case isFalse hn => simp [← ofLimbs_vacatedBits_of_ge (not_lt.mp hn), ← ofLimbs_or]

theorem sarLimbs_eq (a : Word) (n : Nat) : sarLimbs a n = sarResult a n := by
  rw [sarLimbs_eq_shrLimbs_or, shrLimbs_eq, sarResult_eq_shrResult_or]

/-- Settles O44: the limbs of the form are those of the shifted word. -/
theorem shlFromLimbs : Obligations.ShlFromLimbs := by
  intro s _
  rw [shlLimbs_eq]
  rfl

/-- Settles O45: the limbs of the form are those of the shifted word. -/
theorem shrFromLimbs : Obligations.ShrFromLimbs := by
  intro s _
  rw [shrLimbs_eq]
  rfl

/-- Settles O46: the form is SHR's with the fill of the vacated bits, as SAR is. -/
theorem sarFromLimbs : Obligations.SarFromLimbs := by
  intro s _
  rw [sarLimbs_eq]
  rfl

@[simp] theorem shlResult_zero (a : Word) : shlResult a 0 = a := by
  rw [shlResult_eq, BitVec.shiftLeft_zero]

@[simp] theorem shrResult_zero (a : Word) : shrResult a 0 = a := by
  rw [shrResult_eq, BitVec.ushiftRight_zero]

@[simp] theorem sarResult_zero (a : Word) : sarResult a 0 = a := by
  rw [sarResult_eq, BitVec.sshiftRight_zero]

theorem hi_shlResult_64 (a : Word) : hi (shlResult a 64) = lo a := by
  rw [shlResult_eq, hi_shiftLeft_of_ge a le_rfl, Nat.sub_self, BitVec.shiftLeft_zero]

theorem lo_shlResult_64 (a : Word) : lo (shlResult a 64) = 0#64 := by
  rw [shlResult_eq, lo_shiftLeft_of_ge a le_rfl]

/-- Shifting left and back clears the top `n` bits. -/
theorem shrResult_shlResult_getLsbD (a : Word) (n k : Nat) :
    (shrResult (shlResult a n) n).getLsbD k = (decide (k + n < 128) && a.getLsbD k) := by
  rw [shrResult_eq, shlResult_eq, BitVec.getLsbD_ushiftRight, BitVec.getLsbD_shiftLeft, Nat.add_sub_cancel_left,
    Nat.add_comm k n]
  simp

theorem signBit_of_toInt_nonneg {a : Word} (h : 0 ≤ a.toInt) : signBit a = false := by
  rw [signBit_eq_msb, BitVec.msb_eq_toInt, decide_eq_false h.not_gt]

/-- Settles O54: each clause is a law of the result functions that the evaluations show. -/
theorem shiftLaws : Obligations.ShiftLaws := by
  simp only [Obligations.ShiftLaws, evaluate_shl, evaluate_shr, evaluate_sar]
  refine ⟨fun a => ?byZero, fun a _ => ?byLimb, fun a n _ k _ => ?leftAndBack, fun a n hpos => ?nonNegative⟩
  case byZero => exact ⟨shlResult_zero a, shrResult_zero a, sarResult_zero a⟩
  case byLimb => exact ⟨hi_shlResult_64 a, lo_shlResult_64 a⟩
  case leftAndBack => exact shrResult_shlResult_getLsbD a n.toNat k
  case nonNegative => exact sarResult_of_not_signBit n.toNat (signBit_of_toInt_nonneg hpos)

end Sys2Proof.Machine
end

section
/-! PROOFS. The flag generator under every code (R160) and CMP (R163), which shows its four bits as a value. -/

namespace Sys2Proof.Machine

/-- Both arms of the decoder drive the flags of `a - b`. -/
theorem step_flags (s : State) : ∃ t, step s = .next t ∧ t.flags = flagsOf s.a s.b := by
  obtain ⟨i, -, hstep⟩ | ⟨-, hstep⟩ := step_cases s
  · obtain ⟨f, g, hexec⟩ := exec_drives i
    exact ⟨_, hstep.trans (hexec s), driveResult_flags ..⟩
  · exact ⟨_, hstep, driveIllegal_flags s⟩

/-- Settles O16: every step drives `F(a, b)`, whose bits are the four flags; C is SUB's borrow and V is SUBS's overflow. -/
theorem flagsUnderEveryCode : Obligations.FlagsUnderEveryCode := by
  intro s
  obtain ⟨t, hstep, hflags⟩ := step_flags s
  rw [evaluate_sub, evaluate_subs]
  refine ⟨t, hstep, ?_⟩
  rw [hflags]
  exact ⟨zOf_flagsOf s.a s.b, nOf_flagsOf s.a s.b, cOf_flagsOf s.a s.b,
    (vOf_flagsOf s.a s.b).trans (overflowFlag_eq_signs s.a s.b), cOf_flagsOf s.a s.b,
    (vOf_flagsOf s.a s.b).trans (subOverflow_eq_overflowFlag s.a s.b).symm⟩

theorem zextFlags_eq_append (f : FlagBits) : zextFlags f = 0#124 ++ f := BitVec.setWidth_eq_append (by decide)

theorem zextFlags_toNat_lt (f : FlagBits) : (zextFlags f).toNat < 16 := (zextFlags_toNat f).trans_lt f.isLt

theorem zextFlags_bits_low (f : FlagBits) : (zextFlags f).extractLsb' 0 4 = f := by
  rw [zextFlags_eq_append]
  exact BitVec.extractLsb'_append_eq_right

theorem zextFlags_bits_high (f : FlagBits) : (zextFlags f).extractLsb' 4 124 = 0#124 := by
  rw [zextFlags_eq_append]
  exact BitVec.extractLsb'_append_eq_left

/-- Settles O34: CMP drives the zero-extended flags as `y` and the same flags on their port. -/
theorem cmpGivesFlagsAsValue : Obligations.CmpGivesFlagsAsValue := by
  refine ⟨rfl, fun s => ⟨completesWith_of_complete rfl ⟨zextFlags_toNat_lt _, rfl⟩, _, rfl, ?low, ?high⟩⟩
  case low => exact zextFlags_bits_low (flagsOf s.a s.b)
  case high => exact zextFlags_bits_high (flagsOf s.a s.b)

end Sys2Proof.Machine
end

section
/-! PROOFS. The nine predicates: each is the comparison of the operands' values (R164 to R172) and is made from the flags
(R162), the mirror forms from the same flag set too (R174); and exactly one of less, equal and greater holds (R173). -/

namespace Sys2Proof.Machine

/-- Settles O35: they are the clauses of the contract. -/
theorem equalityAndUnsignedOrder : Obligations.EqualityAndUnsignedOrder := by
  refine ⟨⟨rfl, rfl, rfl, rfl, rfl⟩, fun s => ⟨?eq, ?ltu, ?leu, ?gtu, ?geu⟩⟩
  case eq => exact exec_completesWith_contract .eq s
  case ltu => exact exec_completesWith_contract .ltu s
  case leu => exact exec_completesWith_contract .leu s
  case gtu => exact exec_completesWith_contract .gtu s
  case geu => exact exec_completesWith_contract .geu s

/-- Settles O36: they are the clauses of the contract. -/
theorem signedOrder : Obligations.SignedOrder := by
  refine ⟨⟨rfl, rfl, rfl, rfl⟩, fun s => ⟨?lts, ?les, ?gts, ?ges⟩⟩
  case lts => exact exec_completesWith_contract .lts s
  case les => exact exec_completesWith_contract .les s
  case gts => exact exec_completesWith_contract .gts s
  case ges => exact exec_completesWith_contract .ges s

/-- Settles O47: each predicate's `y` is its formula of R162, a mirror form's that of the swapped operands. -/
theorem predicatesComeFromFlags : Obligations.PredicatesComeFromFlags := by
  intro a b
  simp only [evaluate_eq, evaluate_ltu, evaluate_leu, evaluate_lts, evaluate_les, evaluate_gtu, evaluate_geu,
    evaluate_gts, evaluate_ges]
  exact ⟨rfl, rfl, rfl, rfl, rfl, trivial, trivial, trivial, trivial⟩

theorem bool_eq_not_of_iff {c d : Bool} {p q : Prop} (hc : c = true ↔ p) (hd : d = true ↔ q) (h : p ↔ ¬q) : c = !d :=
  bool_unique (hc.trans h) (by rw [Bool.not_eq_true', ← Bool.not_eq_true, hd])

/-- A mirror form's bit is the opposite comparison's of the operands in their own order (R174). -/
theorem unsignedLessFrom_swap (a b : Word) :
    unsignedLessFrom (flagsOf b a) = !unsignedLessEqFrom (flagsOf a b) :=
  bool_eq_not_of_iff (unsignedLessFrom_iff b a) (unsignedLessEqFrom_iff a b) not_le.symm

theorem unsignedLessEqFrom_swap (a b : Word) :
    unsignedLessEqFrom (flagsOf b a) = !unsignedLessFrom (flagsOf a b) :=
  bool_eq_not_of_iff (unsignedLessEqFrom_iff b a) (unsignedLessFrom_iff a b) not_lt.symm

theorem signedLessFrom_swap (a b : Word) : signedLessFrom (flagsOf b a) = !signedLessEqFrom (flagsOf a b) :=
  bool_eq_not_of_iff (signedLessFrom_iff b a) (signedLessEqFrom_iff a b) not_le.symm

theorem signedLessEqFrom_swap (a b : Word) : signedLessEqFrom (flagsOf b a) = !signedLessFrom (flagsOf a b) :=
  bool_eq_not_of_iff (signedLessEqFrom_iff b a) (signedLessFrom_iff a b) not_lt.symm

/-- Settles O48: swapping the operands exchanges less with not less-or-equal, so no second flag set is needed. -/
theorem mirrorFormsFromOneFlagSet : Obligations.MirrorFormsFromOneFlagSet := by
  intro a b
  rw [evaluate_gtu, evaluate_geu, evaluate_gts, evaluate_ges]
  refine ⟨?gtu, ?geu, ?gts, ?ges⟩
  case gtu => exact congrArg zextBit (unsignedLessFrom_swap a b)
  case geu => exact congrArg zextBit (unsignedLessEqFrom_swap a b)
  case gts => exact congrArg zextBit (signedLessFrom_swap a b)
  case ges => exact congrArg zextBit (signedLessEqFrom_swap a b)

theorem zextBit_or (c d : Bool) : zextBit (c || d) = zextBit c ||| zextBit d := by
  cases c <;> cases d <;> rfl

/-- Of three bits that decide less, equal and greater in a linear order exactly one is set. -/
theorem zextBit_trichotomy {α : Type} [LinearOrder α] {x z : α} {less equal greater : Bool}
    (hless : less = true ↔ x < z) (hequal : equal = true ↔ x = z) (hgreater : greater = true ↔ z < x) :
    (zextBit less).toNat + (zextBit equal).toNat + (zextBit greater).toNat = 1 := by
  obtain rfl := bool_unique hless decide_eq_true_iff
  obtain rfl := bool_unique hequal decide_eq_true_iff
  obtain rfl := bool_unique hgreater decide_eq_true_iff
  simp only [zextBit_toNat]
  obtain h | h | h := lt_trichotomy x z
  · simp [h, h.ne, h.not_gt]
  · simp [h]
  · simp [h, h.ne', h.not_gt]

theorem unsignedLessEqFrom_eq_or (f : FlagBits) : unsignedLessEqFrom f = (unsignedLessFrom f || equalFrom f) := rfl

theorem signedLessEqFrom_eq_or (f : FlagBits) : signedLessEqFrom f = (signedLessFrom f || equalFrom f) :=
  Bool.or_comm ..

/-- Settles O55: the three bits decide the linear orders of `u` and `s`, and the formulas of less-or-equal are those of
less and of equal. -/
theorem comparisonIsTotalOrder : Obligations.ComparisonIsTotalOrder := by
  intro a b
  simp only [evaluate_ltu, evaluate_eq, evaluate_lts, evaluate_leu, evaluate_les]
  refine ⟨?unsigned, ?signed, ?leu, ?les⟩
  case unsigned =>
    exact zextBit_trichotomy (unsignedLessFrom_iff a b) ((equalFrom_iff a b).trans BitVec.toNat_inj.symm)
      (unsignedLessFrom_iff b a)
  case signed =>
    exact zextBit_trichotomy (signedLessFrom_iff a b) ((equalFrom_iff a b).trans BitVec.toInt_inj.symm)
      (signedLessFrom_iff b a)
  case leu => rw [unsignedLessEqFrom_eq_or, zextBit_or]
  case les => rw [signedLessEqFrom_eq_or, zextBit_or]

end Sys2Proof.Machine
end

section
/-! PROOFS. Reserved codes: they alone drive `ill = 1`, with zeros (R66, R201), and a model of the host's use of CORE
faults on them (R202). -/

namespace Sys2Proof.Machine

/-- The list of R66 leaves out no code but the operations' own. -/
theorem exists_encode_of_not_reserved {op : OpCode} (h : op.toNat ∉ reservedCodes) : ∃ i, encode i = op := by
  by_contra hnone
  exact h ((decodeOp_reserved_iff op).mp (decodeOp_of_unassigned (not_exists.mp hnone)))

theorem evaluate_reserved {op : OpCode} (h : op.toNat ∈ reservedCodes) (a b : Word) :
    evaluate op a b = ⟨zero, false, flagsOf a b, true⟩ :=
  congrArg shownOutputs (step_of_error (s := State.reset.present op a b) ((decodeOp_reserved_iff op).mpr h))

theorem evaluate_ill_iff (op : OpCode) (a b : Word) : (evaluate op a b).ill = true ↔ op.toNat ∈ reservedCodes := by
  by_cases h : op.toNat ∈ reservedCodes
  case pos => simp [evaluate_reserved h, h]
  case neg =>
    obtain ⟨i, rfl⟩ := exists_encode_of_not_reserved h
    simp [evaluate_encode_ill, h]

/-- Settles O6: the step drives the evaluation, whose `ill` is 1 on the codes of R66 alone and whose other outputs are
known there. -/
theorem reservedCodesDriveIll : Obligations.ReservedCodesDriveIll := by
  intro s
  obtain ⟨t, hstep, hflags⟩ := step_flags s
  obtain rfl := eq_drive_evaluate_of_step hstep
  refine ⟨_, hstep, evaluate_ill_iff s.op s.a s.b, fun hreserved => ?zeros, ?flags, inputsHeld_drive _ s⟩
  case zeros =>
    rw [drive_y, drive_ovf, evaluate_reserved hreserved]
    exact ⟨rfl, rfl⟩
  case flags =>
    rw [hflags]
    exact flagsOf_contract s.a s.b

/-- A line that presents a code by number runs the triple of its two operands (R69). -/
theorem runStmt_raw (prog : List SeqLine) (dest : Nat) (op : OpCode) {x z : SeqOperand} {a b : Word} {h : SeqState}
    (hx : operandValue h.vars x = .ok a) (hz : operandValue h.vars z = .ok b) :
    runStmt prog h (.raw dest op x z) = runTriple dest op a b h := by
  simp only [runStmt, runOperands, secondValue, hx, hz]

theorem runTriple_reserved (dest : Nat) {op : OpCode} (hreserved : op.toNat ∈ reservedCodes) (a b : Word) (h : SeqState) :
    runTriple dest op a b h = .fault (.illegalOp op) := by
  rw [runTriple_eq, if_pos ((evaluate_ill_iff op a b).mpr hreserved)]

theorem runTriple_assigned (dest : Nat) {op : OpCode} (hassigned : op.toNat ∉ reservedCodes) (a b : Word) (h : SeqState) :
    runTriple dest op a b h = .next (h.assign dest op a b) := by
  rw [runTriple_eq, if_neg (hassigned ∘ (evaluate_ill_iff op a b).mp)]

/-- Settles O57: the host's step is the triple's, which faults exactly on the codes of R66; on these CORE alone still
drives the reserved outputs. -/
theorem illegalCodeFaultsTheHost : Obligations.IllegalCodeFaultsTheHost := by
  intro prog h labels dest op x z a b hrunning hline hx hz
  have hstep := (seqStep_of_line hrunning hline).trans (runStmt_raw prog dest op hx hz)
  refine ⟨fun hreserved => ?reserved, fun hassigned => ?assigned⟩
  case reserved =>
    have hcore := step_eq_drive_evaluate (h.core.present op a b)
    rw [present_op, present_a, present_b, evaluate_reserved hreserved] at hcore
    exact ⟨hstep.trans (runTriple_reserved dest hreserved a b h), _, hcore, rfl, rfl, rfl⟩
  case assigned =>
    exact ⟨_, hstep.trans (runTriple_assigned dest hassigned a b h), getVar_setVar_same ..⟩

end Sys2Proof.Machine
end

section
/-! PROOFS. Settled states are those that show the evaluation function of their inputs; reset is one (R221), every step
answers one (R223), and an early sample disturbs none that follows (R224). -/

namespace Sys2Proof.Machine

/-- The step from reset with the triple presented drives `evaluate` (R35), and what a step drives is settled. -/
theorem evaluate_contract (op : OpCode) (a b : Word) : Contract op a b (evaluate op a b) :=
  settled_of_step (step_eq_drive_evaluate (State.reset.present op a b))

/-- The contract leaves no output bit open (R38), so the outputs that meet it are those of the evaluation. -/
theorem outputs_eq_evaluate_of_settled {s : State} (h : Settled s) : s.outputs = evaluate s.op s.a s.b :=
  Contract.unique h (evaluate_contract s.op s.a s.b)

theorem settled_iff_step_eq_self (s : State) : Settled s ↔ step s = .next s := by
  refine ⟨fun hsettled => ?fixed, settled_of_step⟩
  case fixed =>
    rw [step_eq_drive_evaluate, ← outputs_eq_evaluate_of_settled hsettled, drive_outputs]

/-- Settles O11: a step's outputs meet the contract, and a settled state already shows what its step would drive. -/
theorem stepKeepsSettled : Obligations.StepKeepsSettled := ⟨fun _ _ => settled_of_step, settled_iff_step_eq_self⟩

/-- Settles O12: reset is a fixed point of the step. -/
theorem resetIsSettled : Obligations.ResetIsSettled := settled_reset

section
variable (s : State)

@[simp] theorem sampleEarly_op : (sampleEarly s).op = s.op := rfl

@[simp] theorem sampleEarly_a : (sampleEarly s).a = s.a := rfl

@[simp] theorem sampleEarly_b : (sampleEarly s).b = s.b := rfl

@[simp] theorem sampleEarly_draws : (sampleEarly s).draws = s.draws + 1 := rfl

@[simp] theorem sampleEarly_y : (sampleEarly s).y = Config.earlyY s.draws := rfl

@[simp] theorem sampleEarly_ovf : (sampleEarly s).ovf = Config.earlyOvf s.draws := rfl

@[simp] theorem sampleEarly_flags : (sampleEarly s).flags = Config.earlyFlags s.draws := rfl

@[simp] theorem sampleEarly_ill : (sampleEarly s).ill = Config.earlyIll s.draws := rfl

end

/-- Settles O14: the step depends on the inputs alone (R37), and an early sample holds these. -/
theorem earlySampleDoesNotDisturb : Obligations.EarlySampleDoesNotDisturb := by
  intro s
  obtain ⟨t, t', hstep, hstep', houtputs⟩ := outputsDependOnInputsAlone s (sampleEarly s)
    (sampleEarly_op s).symm (sampleEarly_a s).symm (sampleEarly_b s).symm
  have hdraws : t'.draws = s.draws + 1 := by
    rw [eq_drive_evaluate_of_step hstep', drive_draws, sampleEarly_draws]
  exact ⟨t, t', hstep, hstep', houtputs.symm, sampleEarly_op s, sampleEarly_a s, sampleEarly_b s, hdraws⟩

theorem sample_of_le {tPD held : Nat} (h : tPD ≤ held) (s : State) : sample tPD held s = step s := if_pos h

theorem sample_of_lt {tPD held : Nat} (h : held < tPD) (s : State) : sample tPD held s = .next (sampleEarly s) :=
  if_neg (Nat.not_le_of_lt h)

/-- Settles O15: a sample is the step once the inputs were held for the propagation delay, and an early sample before. -/
theorem samplingFollowsPropagationDelay : Obligations.SamplingFollowsPropagationDelay := by
  intro tPD held s
  refine ⟨fun hheld => ?settled, fun hearly => ?early⟩
  case settled =>
    obtain ⟨t, hstep, hinputs⟩ := stepAlwaysAnswersNext s
    exact ⟨t, (sample_of_le hheld s).trans hstep, settled_of_step hstep, hinputs⟩
  case early =>
    exact ⟨sampleEarly s, sample_of_lt hearly s, sampleEarly_y s, sampleEarly_ovf s, sampleEarly_flags s,
      sampleEarly_ill s, sampleEarly_op s, sampleEarly_a s, sampleEarly_b s, sampleEarly_draws s⟩

end Sys2Proof.Machine
end
